-- ==== Sys2Proof/Word.lean ====
section
/-! DEFINITION. The words of the machine: bytes, byte sequences and binary64 bit patterns, with their plainest arithmetic
(spec/00_scope.md section 6). -/

namespace Sys2Proof

/-- A byte, an integer from 0 to 255 (00_scope.md section 6.1). -/
abbrev Byte := BitVec 8

/-- A byte sequence, first byte on the wire first (00_scope.md section 6.1). -/
abbrev Bytes := List Byte

/-- A raw 16-bit field of a detection payload (30_encoding.md R61). -/
abbrev Half := BitVec 16

/-- An IEEE-754 binary64 datum as its bit pattern (00_scope.md section 6.3). -/
abbrev F64 := BitVec 64

namespace F64

/-- The bit that holds the sign. -/
def signBit : F64 := 0x8000000000000000

/-- `+0.0`. -/
def zero : F64 := 0

/-- `1.0`. -/
def one : F64 := 0x3FF0000000000000

/-- `fneg`: the sign bit flipped and nothing else (00_scope.md section 6.3). -/
def neg (a : F64) : F64 := a ^^^ signBit

/-- The same datum with a clear sign bit. -/
def abs (a : F64) : F64 := a &&& 0x7FFFFFFFFFFFFFFF

/-- Whether the sign bit is set. -/
def isNeg (a : F64) : Bool := a.msb

end F64

/-- Bytes in wire order, `n` of them: the operand of a frame (`p0` to `p3`, `a0` to `a7`, `h0` to `h7`, `g0` to `g7` in
opcode_table.json). The lengths are those of Config. -/
structure ByteVec (n : Nat) where
  bytes : Bytes
  length_eq : bytes.length = n
deriving DecidableEq, Repr

/-- Bytes as a `ByteVec` of `n`, where there are as many. -/
def ByteVec.ofBytes (n : Nat) (b : Bytes) : Option (ByteVec n) := if h : b.length = n then some ⟨b, h⟩ else none

/-- The `ByteVec` of the first `n` values of a function. -/
def ByteVec.ofFn (n : Nat) (f : Nat → Byte) : ByteVec n := ⟨(List.range n).map f, by simp⟩

end Sys2Proof
end

