-- ==== Sys2Proof/Config.lean ====
section
/-! DEFINITION. What a model takes as parameters (spec/00_scope.md R7, R8): the literals of the source as named constants,
the parameters the spec leaves open as constants without a body, and the free values of the environment. -/

namespace Sys2Proof.Config

/-! ## Literals of the source (R7, R8, D33) -/

/-- `OPCODE_LEN`. -/
def opcodeLen : Nat := 4
/-- `LEN_FIELD_BYTES`. -/
def lenFieldBytes : Nat := 4
/-- `ACK_LEN`. -/
def ackLen : Nat := 9
/-- `ACK_STATUS_OFFSET`. -/
def ackStatusOffset : Nat := 8
/-- How many bytes an ack has besides its status (30_encoding.md R55, R57). -/
def ackIgnoredLen : Nat := ackLen - 1
/-- `HDR_LEN`. -/
def hdrLen : Nat := 8
/-- `HDR_FLAG_OFFSET`. -/
def hdrFlagOffset : Nat := 4
/-- `NO_TARGET_MAX`. -/
def noTargetMax : Nat := 1
/-- `DET_PAYLOAD_LEN`. -/
def detPayloadLen : Nat := 8
/-- `SPEED_DIVISOR`. -/
def speedDivisor : Int := 100
/-- `ANGLE_DIVISOR`. -/
def angleDivisor : Int := 100
/-- The length of the payload of `INIT`, `RSPI` and `RRAI` (R7; 30_encoding.md R68). -/
def valueLen : Nat := 4
/-- The length of the `GNFD_DESCRIPTOR` (R7; 30_encoding.md R68). -/
def descriptorLen : Nat := 8
/-- `INIT_PAYLOAD`, value 3 in the byte order of decision D9 (20_memory.md R33). -/
def initPayload : ByteVec valueLen := ⟨[0x03, 0x00, 0x00, 0x00], rfl⟩
/-- `RSPI_PAYLOAD`, value 1 in the byte order of decision D9. -/
def rspiPayload : ByteVec valueLen := ⟨[0x01, 0x00, 0x00, 0x00], rfl⟩
/-- `RRAI_PAYLOAD`, value 1 in the byte order of decision D9. -/
def rraiPayload : ByteVec valueLen := ⟨[0x01, 0x00, 0x00, 0x00], rfl⟩
/-- `STOP_BITS`. -/
def stopBits : Nat := 1
/-- `DATA_BITS`. -/
def dataBits : Nat := 8
/-- `READ_TIMEOUT` in milliseconds (2 seconds). -/
def readTimeoutMs : Nat := 2000
/-- `SETTLE_DELAY` in milliseconds. -/
def settleDelayMs : Nat := 75
/-- `SINCOS_EPS` at its default (42_decode_detection.md R110), the bound the machine's `SIN` and `COS` keep; a statement may
take any other (`Numerics.Admissible`). -/
def sincosEps : ℚ := 1 / 2 ^ 52

/-! ## Tags (30_encoding.md R53; the ASCII codes are G1 of 93_implementation_defined.md) -/

/-- `INIT`. -/
def tagInit : Bytes := [0x49, 0x4E, 0x49, 0x54]
/-- `RSPI`. -/
def tagRspi : Bytes := [0x52, 0x53, 0x50, 0x49]
/-- `RRAI`. -/
def tagRrai : Bytes := [0x52, 0x52, 0x41, 0x49]
/-- `GNFD`. -/
def tagGnfd : Bytes := [0x47, 0x4E, 0x46, 0x44]
/-- `GBYE`. -/
def tagGbye : Bytes := [0x47, 0x42, 0x59, 0x45]

/-! ## Open parameters (R7; 92_eei_decisions.md section E): nothing in Lean knows their values -/

/-- The word `PAYLOAD_MAX` is made from. -/
opaque payloadMaxWord : BitVec (8 * lenFieldBytes)
/-- `PAYLOAD_MAX`: any value from 8 to 2^32 - 1 (R7, D7; log 7). -/
def payloadMax : Nat := max 8 payloadMaxWord.toNat

/-- The number `BAUD_INIT` is made from. -/
opaque baudInitSeed : Nat
/-- `BAUD_INIT`: any positive number (D11; log 7). -/
def baudInit : Nat := baudInitSeed + 1
/-- The number `BAUD_HIGH` exceeds `BAUD_INIT` by is made from. -/
opaque baudRaiseSeed : Nat
/-- `BAUD_HIGH`: any number above `BAUD_INIT` (D11; log 7). -/
def baudHigh : Nat := baudInit + (baudRaiseSeed + 1)

/-- The bytes of the `GNFD_DESCRIPTOR`. -/
opaque gnfdDescriptorByte : Nat → Byte
/-- `GNFD_DESCRIPTOR`: any eight bytes, the same in every cycle of a session (D10; log 7). -/
def gnfdDescriptor : ByteVec descriptorLen := .ofFn descriptorLen gnfdDescriptorByte

/-! ## Free values of the environment -/

/-- What `rx` holds when a session is created (10_state.md R27: unspecified, a free input; log 3). -/
opaque rxAtReset : Bytes
/-- The caller's `Start(params)` at the creation of a session: the port, or that no start ever comes (44_host_session.md
R141, R142; log 4). -/
opaque startEvent : Option Nat
/-- `TRANSPORT_USABLE` (44_host_session.md R161, D20; log 5). -/
opaque transportUsable : Bool
/-- The handle an `open` returns (60_exceptions.md R186; log 2). -/
opaque freshHandle : Nat → Nat
/-- The capture timestamp of a record (44_host_session.md R157, D22; log 2). -/
opaque timestamp : Nat → Nat
/-- The payload bits of the NaN a product or a quotient of two data is, where it is one (log 13). -/
opaque nanBits : F64 → F64 → BitVec 51
/-- What `SIN` gives for a datum with a clear sign bit, where R110 allows it (42_decode_detection.md R109, D15; log 12). -/
opaque sinOfMagnitude : F64 → F64
/-- What `COS` gives for a datum with a clear sign bit, where R110 allows it (R109, D15; log 12). -/
opaque cosOfMagnitude : F64 → F64

end Sys2Proof.Config
end

