-- ==== Sys2Proof/Syntax.lean ====
section
/-! DEFINITION. The instructions: one constructor for each of the thirteen rows of spec/opcode_table.json (00_scope.md R9:
an instruction is an operation of R3 or, one level up, a frame of the wire protocol). -/

namespace Sys2Proof

/-- The payload of `INIT`, `RSPI` and `RRAI`, `p0` to `p3` (30_encoding.md R68). -/
abbrev Value := ByteVec Config.valueLen
/-- The payload of `GNFD`, `g0` to `g7` (R68). -/
abbrev Descriptor := ByteVec Config.descriptorLen
/-- The bytes of an ack besides its status, `a0` to `a7` (R55, R57). -/
abbrev AckBytes := ByteVec Config.ackIgnoredLen
/-- A detection header (R58). -/
abbrev Header := ByteVec Config.hdrLen

/-- Which byte source `decode_detection` is handed (10_state.md R20): the receive stream, or the finite byte sequence with a
read position that a unit test supplies. -/
inductive Source where
  | stream
  | reader
deriving DecidableEq, Repr

/-- The rows of the opcode table. -/
inductive Instr where
  /-- `INIT`, payload `p0..p3` (43_command_set.md R121). -/
  | init (p : Value)
  /-- `RSPI`, payload `p0..p3` (R122). -/
  | rspi (p : Value)
  /-- `RRAI`, payload `p0..p3` (R123). -/
  | rrai (p : Value)
  /-- `GNFD`, payload `g0..g7` (R124). -/
  | gnfd (g : Descriptor)
  /-- `GBYE`, no payload (R125). -/
  | gbye
  /-- `ACK.ok`: ignored bytes `a0..a7`, status `00` (41_decode_ack.md R93). -/
  | ackOk (a : AckBytes)
  /-- `ACK.not_acknowledged`: ignored bytes `a0..a7`, a nonzero status (R94). -/
  | ackNotAcknowledged (a : AckBytes) (status : Byte)
  /-- `HDR.no_target`: a header whose flag is 0 or 1 (42_decode_detection.md R101). -/
  | hdrNoTarget (h : Header)
  /-- `HDR.target`: a header whose flag is 2 to 255 (R102). -/
  | hdrTarget (h : Header)
  /-- `PLD`: the raw fields of a detection payload (R103). -/
  | pld (distance speed angle magnitude : Half)
  /-- `encode_command(opcode, payload)` (40_encode_command.md R81). -/
  | encodeCommand (opcode payload : Bytes)
  /-- `decode_ack(bytes)` (41_decode_ack.md R96). -/
  | decodeAck (bytes : Bytes)
  /-- `decode_detection(header, payload_reader)` (42_decode_detection.md R113). -/
  | decodeDetection (header : Header) (source : Source)
deriving DecidableEq, Repr

end Sys2Proof
end

