-- ==== Sys2Proof/Machine/State.lean ====
section
/-! DEFINITION. The state of the whole machine as plain data: the host's session, the two byte streams, the transport's
configuration, the ports of the block, and the inputs from outside (spec/10_state.md). Also the outcomes of the operations,
the effects of the host, the reasons to stop, and the state after reset. -/

namespace Sys2Proof.Machine

/-! ## Results and outcomes -/

/-- The Target record: six binary64 fields (10_state.md R12). -/
structure Target where
  distanceCm : F64
  speedKmh : F64
  angleDeg : F64
  magnitude : F64
  xCm : F64
  yCm : F64
deriving DecidableEq, Repr

/-- The result of ENC (10_state.md R11). -/
inductive EncResult where
  | frame (bytes : Bytes)
  | invalidOpcode
deriving DecidableEq, Repr

/-- The verdict that `ExcessBytes` carries (41_decode_ack.md R95). -/
inductive AckVerdict where
  | ok
  | notAcknowledged
deriving DecidableEq, Repr

/-- The outcome of ACK (41_decode_ack.md R96). -/
inductive AckOutcome where
  | ok
  | timeout
  | shortRead
  | notAcknowledged
  | excessBytes (v : AckVerdict)
deriving DecidableEq, Repr

/-- The result of DET (42_decode_detection.md R100). -/
inductive DetResult where
  | none
  | some (t : Target)
  | truncatedPayload
deriving DecidableEq, Repr

/-- The output ports of the block: the result of one unit's transaction (10_state.md R11). -/
inductive PortResult where
  | enc (r : EncResult)
  | ack (o : AckOutcome)
  | det (r : DetResult)
deriving DecidableEq, Repr

/-- The outcome of a session (10_state.md R18). -/
inductive SessionOutcome where
  | normal
  | initializationFailed
  | transportError
deriving DecidableEq, Repr

/-! ## The host and the transport -/

/-- The six session states (10_state.md R14). -/
inductive SessionState where
  | disconnected
  | initializing
  | configuringSpeed
  | configuringRange
  | streaming
  | shuttingDown
deriving DecidableEq, Repr

/-- The host's place in the exchange: which frame the next bytes of `rx` belong to (20_memory.md R42, R43). -/
inductive Phase where
  /-- No exchange is in flight. -/
  | ready
  /-- A command has been put and the take of its ack has not returned. -/
  | awaitAck
  /-- A `GNFD` ack was `Ok` and the header take has not returned. -/
  | awaitHeader
  /-- The header announced a target and the payload take has not returned. -/
  | awaitPayload
deriving DecidableEq, Repr

/-- The parity setting of the transport (00_scope.md R7: `PARITY` is EVEN). -/
inductive Parity where
  | even
deriving DecidableEq, Repr

/-- The framing of the transport (10_state.md R22, R27; 60_exceptions.md R191). -/
structure Framing where
  parity : Parity
  stopBits : Nat
  dataBits : Nat
  readTimeoutMs : Nat
deriving DecidableEq, Repr

/-- Even parity, 1 stop bit, 8 data bits, 2 seconds: the framing at reset (10_state.md R27) and what the host passes to `open`
(44_host_session.md R142). -/
def serialFraming : Framing := ⟨.even, Config.stopBits, Config.dataBits, Config.readTimeoutMs⟩

/-- A captured record: a Target and its capture timestamp (10_state.md R17). -/
structure Record where
  target : Target
  timestamp : Nat
deriving DecidableEq, Repr

/-- The step a warning names (60_exceptions.md R182). -/
inductive WarnStep where
  | rspi
  | rrai
  | gnfd
  | header
  | payload
deriving DecidableEq, Repr

/-- The outcome a warning names (60_exceptions.md R182; 44_host_session.md R154, R155). -/
inductive WarnLabel where
  | ack (o : AckOutcome)
  | timeout
  | shortRead
  | truncatedPayload
deriving DecidableEq, Repr

/-- An effect of the host (44_host_session.md R141). A call of a primitive says whether it succeeded. -/
inductive Effect where
  /-- `open` (60_exceptions.md R186). -/
  | opened (port baud : Nat) (framing : Framing) (ok : Bool)
  /-- `write` (R187). -/
  | wrote (bytes : Bytes) (ok : Bool)
  /-- `read` of up to `n` bytes, with the bytes it returned, none where it failed (R188). -/
  | took (n : Nat) (bytes : Option Bytes)
  /-- `set_baud` (R189). -/
  | baudSet (rate : Nat) (ok : Bool)
  /-- `close` (R190). -/
  | closed (ok : Bool)
  /-- The settle delay (44_host_session.md R144). -/
  | settled (ms : Nat)
  /-- One warning (60_exceptions.md R182). -/
  | warned (step : WarnStep) (label : WarnLabel)
  /-- "no target" handed to the caller (44_host_session.md R156). -/
  | handedNoTarget
  /-- A record handed to the caller (R156). -/
  | handedTarget (r : Record)
  /-- The records and the outcome handed over at termination (R160; 60_exceptions.md R192). -/
  | handedOver (records : List Record) (outcome : SessionOutcome)
deriving DecidableEq, Repr

/-! ## Inputs from outside -/

/-- What the oracle chooses at one call of a transport primitive (10_state.md R19, R21; 60_exceptions.md R177, R189; log 1). -/
structure Reply where
  /-- The primitive fails with `IoError` (R177, D29). -/
  ioError : Bool
  /-- The bytes the sensor appends to `rx` before the primitive returns (10_state.md R21). -/
  arrived : Bytes
  /-- The caller sets `cancel_requested` before the primitive returns (10_state.md R19). -/
  cancel : Bool
  /-- What `rx` holds instead of its bytes once a `set_baud`, successful or not, has disturbed them (60_exceptions.md R189, U22);
  none: they survive. Read by `set_baud` alone (log 21). -/
  rewritten : Option Bytes
  /-- How many bytes at the front of `rx` a failing `read` has consumed: the spec says only what a take that returns removes.
  DESIGN CHOICE: any number may be lost. Read by a failing `read` alone (log 33). -/
  lost : Nat
deriving DecidableEq, Repr, Inhabited

/-- A call that succeeds, with nothing arriving and no cancellation. -/
def Reply.quiet : Reply := ⟨false, [], false, none, 0⟩

/-- A finite payload reader: a byte sequence and how many of its bytes have been taken (10_state.md R20). -/
structure Reader where
  bytes : Bytes
  pos : Nat
deriving DecidableEq, Repr

/-- An operation of the block presented at its input ports (10_state.md R11; 70_reset_and_hazards.md R201). -/
inductive Call where
  | encode (opcode payload : Bytes)
  | ack (bytes : Bytes)
  | detection (header : Header) (source : Source)
deriving DecidableEq, Repr

/-- The four command payloads of a session (00_scope.md R7; log 6). -/
structure Payloads where
  init : Value
  rspi : Value
  rrai : Value
  gnfd : Descriptor
deriving DecidableEq, Repr

/-! ## The state -/

/-- Everything the machine holds. -/
structure State where
  /-- `state` (10_state.md R14). -/
  session : SessionState
  /-- The host's place in the exchange (20_memory.md R42). -/
  phase : Phase
  /-- `baud` (10_state.md R15). -/
  baud : Option Nat
  /-- `handle` (R16). -/
  handle : Option Nat
  /-- The port identifier the transport was opened with (R22). -/
  port : Option Nat
  /-- The transport's framing (R22). -/
  framing : Framing
  /-- `records` (R17). -/
  records : List Record
  /-- `session_outcome` (R18). -/
  sessionOutcome : Option SessionOutcome
  /-- `cancel_requested` (R19). -/
  cancelRequested : Bool
  /-- `tx` (R20). -/
  tx : Bytes
  /-- `rx` (R20). -/
  rx : Bytes
  /-- The finite payload reader of a direct call of DET (R20, R23). -/
  reader : Reader
  /-- Operations presented to the block and not yet run (R11). -/
  calls : List Call
  /-- The block's output ports: the result of the step just taken (R11). No step reads it. DESIGN CHOICE: which of a step's
  results the one field shows (log 23). -/
  result : Option PortResult
  /-- The effects of the host so far, oldest first (44_host_session.md R141). No step reads it. -/
  trace : List Effect
  /-- The caller's pending `Start(params)`: the port (44_host_session.md R141). -/
  startEvent : Option Nat
  /-- What the next calls of transport primitives will answer, first call first (the model's own; log 1). -/
  replies : List Reply
  /-- `TRANSPORT_USABLE` (44_host_session.md R161). -/
  transportUsable : Bool
  /-- How many free values have been drawn (the model's own; log 2). -/
  draws : Nat
  /-- The command payloads, the same for a whole session (00_scope.md R7; log 6). No step writes them. -/
  payloads : Payloads
deriving DecidableEq, Repr

/-! ## Reasons to stop -/

/-- Why the machine faults. -/
inductive Fault where
  /-- A transport primitive is called where there is no handle (10_state.md R16; 60_exceptions.md R190). Raised by fetch and
  by `execDecodeDetection`. Safe: no run from reset reaches it (log 17). -/
  | transportNotOpen
deriving DecidableEq, Repr

/-- Why the machine refuses. -/
inductive Refusal where
  /-- An instruction that has no meaning yet, raised by the dispatch. Safe. -/
  | notModelled (mnemonic : String)
  /-- A session that has returned to `Disconnected` takes no further event (44_host_session.md R162; U28). Raised by fetch and
  by `execInit`. Safe: the run has ended (log 15). -/
  | sessionFinished
  /-- A command outside the state and order in which the host sends it (43_command_set.md R127). Raised by the meanings of the
  five commands. Safe: no step selects one (log 16). -/
  | commandOutOfSequence
  /-- A payload longer than `PAYLOAD_MAX` (40_encode_command.md R84; U9). Raised by `execEncodeCommand`. Safe. -/
  | payloadTooLong
deriving DecidableEq, Repr

end Sys2Proof.Machine

namespace Sys2Proof.Config

/-- The oracle's answer to a call beyond the listed replies: a free value (10_state.md R21; log 2). -/
opaque reply : Nat → Machine.Reply

end Sys2Proof.Config

namespace Sys2Proof.Machine

/-! ## Reset -/

/-- The creation of a session, before `Start` (10_state.md R27; 70_reset_and_hazards.md R200). -/
def State.reset : State where
  session := .disconnected
  phase := .ready
  baud := none
  handle := none
  port := none
  framing := serialFraming
  records := []
  sessionOutcome := none
  cancelRequested := false
  tx := []
  rx := Config.rxAtReset
  reader := ⟨[], 0⟩
  calls := []
  result := none
  trace := []
  startEvent := Config.startEvent
  replies := []
  transportUsable := Config.transportUsable
  draws := 0
  payloads := ⟨Config.initPayload, Config.rspiPayload, Config.rraiPayload, Config.gnfdDescriptor⟩

end Sys2Proof.Machine
end

