-- ==== Sys2Proof/Machine/Flags.lean ====
section
/-! DEFINITION. What stands for flags. The block has no flag, condition code or status register (spec/10_state.md R22): an
outcome is a returned value. Here are the outcome names with their numeric codes (60_exceptions.md R171) and the tests the
host makes on an outcome (R174, R175). -/

namespace Sys2Proof.Machine

/-- The kinds of outcome that have a code (60_exceptions.md R171). -/
inductive OutcomeKind where
  | ok
  | timeout
  | shortRead
  | notAcknowledged
  | truncatedPayload
  | initializationFailed
  | transportError
  | invalidOpcode
  | excessBytesOk
  | excessBytesNotAcknowledged
deriving DecidableEq, Repr

/-- `OUTCOME_CODE`: the 4-bit codes (60_exceptions.md R171, D5). -/
def OutcomeKind.code : OutcomeKind → BitVec 4
  | .ok => 0
  | .timeout => 1
  | .shortRead => 2
  | .notAcknowledged => 3
  | .truncatedPayload => 4
  | .initializationFailed => 5
  | .transportError => 6
  | .invalidOpcode => 7
  | .excessBytesOk => 8
  | .excessBytesNotAcknowledged => 9

/-- The kind of an ACK outcome. -/
def AckOutcome.kind : AckOutcome → OutcomeKind
  | .ok => .ok
  | .timeout => .timeout
  | .shortRead => .shortRead
  | .notAcknowledged => .notAcknowledged
  | .excessBytes .ok => .excessBytesOk
  | .excessBytes .notAcknowledged => .excessBytesNotAcknowledged

/-- The kind of an ENC result; a returned frame is `Ok`. -/
def EncResult.kind : EncResult → OutcomeKind
  | .frame _ => .ok
  | .invalidOpcode => .invalidOpcode

/-- The kind of a DET result; `None` and `Some` are `Ok`. -/
def DetResult.kind : DetResult → OutcomeKind
  | .none => .ok
  | .some _ => .ok
  | .truncatedPayload => .truncatedPayload

/-- The kind of a session outcome. DESIGN CHOICE: R171 lists no code for `Normal`; the model gives it the code of `Ok` (log 29). -/
def SessionOutcome.kind : SessionOutcome → OutcomeKind
  | .normal => .ok
  | .initializationFailed => .initializationFailed
  | .transportError => .transportError

/-- The outcome kind a unit's result port shows. -/
def PortResult.kind : PortResult → OutcomeKind
  | .enc r => r.kind
  | .ack o => o.kind
  | .det r => r.kind

/-- A failed ack is any outcome other than `Ok` (60_exceptions.md R175). -/
def AckOutcome.failed (o : AckOutcome) : Bool := o != .ok

end Sys2Proof.Machine
end

