-- ==== Sys2Proof/Machine/Float.lean ====
section
/-! DEFINITION. IEEE-754 binary64 as 42_decode_detection.md R114 and 00_scope.md section 6.3 ask for it: exact conversion of
integers, the correctly rounded quotient and product (round to nearest, ties to even), total over all bit patterns. An
operation computes its exact rational result first and rounds once at the end. -/

namespace Sys2Proof.F64

/-- The 11 exponent bits. -/
def expField (a : F64) : Nat := a.toNat / 2 ^ 52 % 2 ^ 11

/-- The 52 fraction bits. -/
def frac (a : F64) : Nat := a.toNat % 2 ^ 52

/-- Neither infinite nor NaN. -/
def isFinite (a : F64) : Bool := a.expField != 2047

/-- An infinity. -/
def isInf (a : F64) : Bool := a.expField == 2047 && a.frac == 0

/-- A NaN. -/
def isNaN (a : F64) : Bool := a.expField == 2047 && a.frac != 0

/-- The significand of a finite datum as an integer, the hidden bit in place. -/
def mant (a : F64) : Nat := if a.expField = 0 then a.frac else 2 ^ 52 + a.frac

/-- The power of two a finite datum's significand is scaled by. -/
def expo (a : F64) : Int := (if a.expField = 0 then 1 else (a.expField : Int)) - 1075

/-- A finite datum with a zero significand. -/
def isZero (a : F64) : Bool := a.expField == 0 && a.frac == 0

/-- The rational number a finite datum stands for. -/
def toRat (a : F64) : ℚ := (if a.isNeg then -1 else 1) * (a.mant : ℚ) * (2 : ℚ) ^ a.expo

/-- A sign and the 63 magnitude bits as one datum. -/
def pack (neg : Bool) (mag : Nat) : F64 := BitVec.ofNat 64 (if neg then 2 ^ 63 + mag else mag)

/-- The magnitude bits of infinity. -/
def infMag : Nat := 2047 * 2 ^ 52

/-- An infinity of the given sign. -/
def inf (neg : Bool) : F64 := pack neg infMag

/-- The NaN an operation on `a` and `b` gives where it gives one: quiet, its payload a free value (log 13). -/
def nan (a b : F64) : F64 := pack false (infMag + 2 ^ 51 + (Config.nanBits a b).toNat)

/-- `num / den * 2 ^ -e` as a numerator and a denominator. -/
def scaled (num den : Nat) (e : Int) : Nat × Nat := (num * 2 ^ (-e).toNat, den * 2 ^ e.toNat)

/-- The power of two of the last place of `num / den` as a binary64 number: such that the scaled quotient has 53 bits, or
the smallest power there is. -/
def lastPlace (num den : Nat) : Int :=
  let guess : Int := (num.log2 : Int) - den.log2 - 52
  let sc := scaled num den guess
  max (-1074) (if sc.1 / sc.2 < 2 ^ 52 then guess - 1 else guess)

/-- `num / den` rounded to the nearest integer, a tie to the even one. -/
def nearestEven (num den : Nat) : Nat :=
  let q := num / den
  let r := num % den
  if den < 2 * r ∨ (2 * r = den ∧ q % 2 = 1) then q + 1 else q

/-- The magnitude bits of the binary64 datum nearest to `num / den`, ties to even; infinity beyond the range. -/
def roundMag (num den : Nat) : Nat :=
  if num = 0 then 0
  else
    let e := lastPlace num den
    let sc := scaled num den e
    min infMag ((e + 1074).toNat * 2 ^ 52 + nearestEven sc.1 sc.2)

/-- The magnitude bits of `k / 2 ^ j`, for `k` below `2 ^ 53` and `j` at most 53. -/
def gridMag (k j : Nat) : Nat := if k = 0 then 0 else (1022 + k.log2 - j) * 2 ^ 52 + k * 2 ^ (52 - k.log2)

/-- `F64(n)`: an integer converted (exactly, for every `u16` and `i16`). -/
def ofInt (n : Int) : F64 := pack (n < 0) (roundMag n.natAbs 1)

/-- `fmul`: the correctly rounded product (00_scope.md section 6.3). -/
def mul (a b : F64) : F64 :=
  let neg := xor a.isNeg b.isNeg
  if a.isNaN || b.isNaN then nan a b
  else if a.isInf then (if b.isZero then nan a b else inf neg)
  else if b.isInf then (if a.isZero then nan a b else inf neg)
  else
    let sc := scaled (a.mant * b.mant) 1 (-(a.expo + b.expo))
    pack neg (roundMag sc.1 sc.2)

/-- `fdiv`: the correctly rounded quotient (00_scope.md section 6.3). -/
def div (a b : F64) : F64 :=
  let neg := xor a.isNeg b.isNeg
  if a.isNaN || b.isNaN then nan a b
  else if a.isInf then (if b.isInf then nan a b else inf neg)
  else if b.isInf then pack neg 0
  else if b.isZero then (if a.isZero then nan a b else inf neg)
  else
    let sc := scaled a.mant b.mant (-(a.expo - b.expo))
    pack neg (roundMag sc.1 sc.2)

end Sys2Proof.F64
end

