-- ==== Sys2Proof/Machine/Numerics.lean ====
section
/-! DEFINITION. The numerics record `RADIANS`, `SIN`, `COS` (spec/42_decode_detection.md R108 to R110): its default `RADIANS`,
what makes a record admissible, and the record the machine uses, whose values no proof can see. -/

namespace Sys2Proof

/-- The numerics record: three functions from binary64 to binary64 (00_scope.md R7). -/
structure Numerics where
  /-- `RADIANS`. -/
  radians : F64 → F64
  /-- `SIN`. -/
  sin : F64 → F64
  /-- `COS`. -/
  cos : F64 → F64

/-- `PI_OVER_180`, the binary64 nearest to pi / 180 (R108; G3 of 93_implementation_defined.md). -/
def Numerics.piOver180 : F64 := 0x3F91DF46A2529D39

/-- The default `RADIANS`: one multiplication by `PI_OVER_180` (R108, D14). -/
def Numerics.defaultRadians (a : F64) : F64 := F64.mul a Numerics.piOver180

/-- The bound `2^-49` on the error of `RADIANS`, an absolute one as R108 writes it. -/
def Numerics.radiansEps : ℚ := 1 / 2 ^ 49

/-- A bound on the magnitude of the angles the block produces (R106, R108): the largest raw magnitude over `ANGLE_DIVISOR`, that
is 327.68, and what the rounding of the division can add to it. -/
def Numerics.angleMax : ℚ := 2 ^ 15 / Config.angleDivisor * (1 + 1 / 2 ^ 53)

/-- The range of operands R110 speaks of, 5.72: the largest raw magnitude times pi / 180, rounded up to 572, over
`ANGLE_DIVISOR`. -/
def Numerics.sincosRange : ℚ := 572 / Config.angleDivisor

/-- What R108 and R110 ask of an admissible numerics record, `eps` being `SINCOS_EPS`. `Real.sin`, `Real.cos` and `Real.pi` are
the real functions and the real number. -/
structure Numerics.Admissible (N : Numerics) (eps : ℚ) : Prop where
  /-- R108: `RADIANS(+0.0) = +0.0`. -/
  radians_zero : N.radians F64.zero = F64.zero
  /-- R108: `RADIANS` is odd, asked of finite operands (log 12). -/
  radians_odd : ∀ a : F64, a.isFinite → N.radians a.neg = (N.radians a).neg
  /-- R108: finite, and within `2^-49` of `a * pi / 180`, for every angle of the block's range. -/
  radians_close : ∀ a : F64, a.isFinite → |a.toRat| ≤ Numerics.angleMax → (N.radians a).isFinite ∧
    |((N.radians a).toRat : ℝ) - (a.toRat : ℝ) * Real.pi / 180| ≤ (Numerics.radiansEps : ℝ)
  /-- R110 item 1 for `SIN`. -/
  sin_close : ∀ r : F64, r.isFinite → |r.toRat| ≤ Numerics.sincosRange → (N.sin r).isFinite ∧
    |((N.sin r).toRat : ℝ) - Real.sin (r.toRat : ℝ)| ≤ (eps : ℝ)
  /-- R110 item 1 for `COS`. -/
  cos_close : ∀ r : F64, r.isFinite → |r.toRat| ≤ Numerics.sincosRange → (N.cos r).isFinite ∧
    |((N.cos r).toRat : ℝ) - Real.cos (r.toRat : ℝ)| ≤ (eps : ℝ)
  /-- R110 item 2 for `SIN`. -/
  sin_bound : ∀ r : F64, r.isFinite → |r.toRat| ≤ Numerics.sincosRange → |(N.sin r).toRat| ≤ 1
  /-- R110 item 2 for `COS`. -/
  cos_bound : ∀ r : F64, r.isFinite → |r.toRat| ≤ Numerics.sincosRange → |(N.cos r).toRat| ≤ 1
  /-- R110 item 3 for `SIN`. -/
  sin_zero : N.sin F64.zero = F64.zero
  /-- R110 item 3 for `COS`. -/
  cos_zero : N.cos F64.zero = F64.one
  /-- R110 item 4 for `SIN`. -/
  sin_odd : ∀ r : F64, r.isFinite → |r.toRat| ≤ Numerics.sincosRange → N.sin r.neg = (N.sin r).neg
  /-- R110 item 4 for `COS`. -/
  cos_even : ∀ r : F64, r.isFinite → |r.toRat| ≤ Numerics.sincosRange → N.cos r.neg = N.cos r

/-- A datum kept inside `[-1.0, 1.0]`: itself where its magnitude is at most 1, else `1.0` (R110 item 2). -/
def F64.clampUnit (v : F64) : F64 := if v.abs.toNat ≤ F64.one.toNat then v else F64.one

/-- The odd function that `f` gives on data with a clear sign bit, with `+0.0` at `+0.0` (R108, R110 items 3 and 4). -/
def Numerics.oddOf (f : F64 → F64) (a : F64) : F64 :=
  let v := if a.abs = F64.zero then F64.zero else f a.abs
  if a.isNeg then v.neg else v

/-- How many terms of a series are summed: thirty, and more for a wider range. -/
def Numerics.seriesTerms : Nat := 2 * ⌈Numerics.sincosRange⌉₊ + 18

/-- The first terms of the sine's series: within `seriesEps` of the sine in the range of R110. -/
def Numerics.sinSeries (x : ℚ) : ℚ := ∑ k ∈ Finset.range Numerics.seriesTerms, (-1) ^ k * x ^ (2 * k + 1) / (2 * k + 1).factorial

/-- The first terms of the cosine's series. -/
def Numerics.cosSeries (x : ℚ) : ℚ := ∑ k ∈ Finset.range Numerics.seriesTerms, (-1) ^ k * x ^ (2 * k) / (2 * k).factorial

/-- A bound on what the terms leave out (DEDUCED; log 12). -/
def Numerics.seriesEps : ℚ := 1 / 2 ^ 100

/-- The multiple of `2 ^ -52` next to `x` on the side of zero, never beyond 1 in magnitude. -/
def F64.cutUnit (x : ℚ) : F64 := F64.pack (x < 0) (F64.gridMag (min ⌊|x| * 2 ^ 52⌋₊ (2 ^ 52)) 52)

/-- A free value where R110 allows it: `free` itself where it is within `SINCOS_EPS` of the series (and beyond the range of R110,
where nothing is asked), else the series cut to 52 places. The sum of `SINCOS_EPS` and `seriesEps` lets every value pass that
R110 allows. -/
def Numerics.within (series : ℚ → ℚ) (free : F64 → F64) (m : F64) : F64 :=
  let v := (free m).clampUnit
  if Numerics.sincosRange < m.toRat ∨ |v.toRat - series m.toRat| ≤ Config.sincosEps + Numerics.seriesEps then v
  else F64.cutUnit (series m.toRat)

/-- The machine's numerics record: the default `RADIANS` (R108; its sign symmetry carried over to NaNs), and any `SIN` and `COS`
that R110 allows, their values free (log 12). -/
def Config.numerics : Numerics where
  radians := Numerics.oddOf Numerics.defaultRadians
  sin := Numerics.oddOf (Numerics.within Numerics.sinSeries Config.sinOfMagnitude)
  cos := fun r => if r.abs = F64.zero then F64.one else Numerics.within Numerics.cosSeries Config.cosOfMagnitude r.abs

end Sys2Proof
end

