-- ==== Sys2Proof/Machine/Operands.lean ====
section
/-! DEFINITION. How numeric fields are assembled from bytes, extended, scaled and taken apart again (spec/30_encoding.md R51 to
R67; 00_scope.md section 6.2), and the bytes of the fixed-size operands. -/

namespace Sys2Proof

/-- The flag of a detection header (30_encoding.md R58). -/
def Header.flag (h : Header) : Byte := h.bytes.getD Config.hdrFlagOffset 0

/-- The flag of a detection header says "no target" (30_encoding.md R59, unsigned compare). -/
def Header.noTarget (h : Header) : Bool := h.flag.toNat ≤ Config.noTargetMax

/-- The bytes of an ack: the ignored ones with the status at its offset (30_encoding.md R55, R57). -/
def ackFrame (a : AckBytes) (status : Byte) : Bytes :=
  a.bytes.take Config.ackStatusOffset ++ status :: a.bytes.drop Config.ackStatusOffset

/-- `le16(b0, b1)`: the byte at the lower offset is the less significant (20_memory.md R31). -/
def le16 (b0 b1 : Byte) : Half := b1 ++ b0

/-- `le32(b0, b1, b2, b3)`. -/
def le32 (b0 b1 b2 b3 : Byte) : Nat := b0.toNat + 2 ^ 8 * b1.toNat + 2 ^ 16 * b2.toNat + 2 ^ 24 * b3.toNat

/-- The number that bytes stand for, least significant byte first (20_memory.md R31). -/
def leNat : Bytes → Nat
  | [] => 0
  | b :: bs => b.toNat + 2 ^ 8 * leNat bs

/-- The low `n` bytes of a number, least significant byte first (20_memory.md R31). -/
def leBytes : Nat → Nat → Bytes
  | 0, _ => []
  | n + 1, w => BitVec.ofNat 8 w :: leBytes n (w / 2 ^ 8)

/-- `LE32(n)`: the bytes of a length field (30_encoding.md R51, R52). -/
def LE32 (n : Nat) : Bytes := leBytes Config.lenFieldBytes n

/-- The 16-bit field whose less significant byte stands at offset `i` (30_encoding.md R61). -/
def le16At (b : Bytes) (i : Nat) : Half := le16 (b.getD i 0) (b.getD (i + 1) 0)

/-- The two bytes of a 16-bit field, least significant first (30_encoding.md R61). -/
def Half.toBytes (v : Half) : Bytes := [v.extractLsb' 0 8, v.extractLsb' 8 8]

/-- `zext`: an unsigned field as an integer. -/
def zext16 (v : Half) : Int := (v.toNat : Int)

/-- `sext_16`: the two's complement reading (30_encoding.md R66). -/
def sext16 (v : Half) : Int := if v.toNat < 2 ^ 15 then (v.toNat : Int) else (v.toNat : Int) - 2 ^ 16

/-- An unsigned field of scale 1 as binary64: distance and magnitude (R62, R65; 42_decode_detection.md R104, R107). -/
def unsignedField (v : Half) : F64 := F64.ofInt (zext16 v)

/-- The speed field: sign-extended, converted, divided by 100 (R63; 42_decode_detection.md R105). -/
def speedField (v : Half) : F64 := F64.div (F64.ofInt (sext16 v)) (F64.ofInt Config.speedDivisor)

/-- The angle field: sign-extended, converted, divided by 100 (R64; 42_decode_detection.md R106). -/
def angleField (v : Half) : F64 := F64.div (F64.ofInt (sext16 v)) (F64.ofInt Config.angleDivisor)

/-- The `x_cm` of a distance and an angle: `fmul(fneg(distance_cm), SIN(RADIANS(angle_deg)))` (42_decode_detection.md R111). -/
def projectX (N : Numerics) (distance angle : F64) : F64 := F64.mul distance.neg (N.sin (N.radians angle))

/-- The `y_cm` of a distance and an angle: `fmul(distance_cm, COS(RADIANS(angle_deg)))` (42_decode_detection.md R112). -/
def projectY (N : Numerics) (distance angle : F64) : F64 := F64.mul distance (N.cos (N.radians angle))

end Sys2Proof
end

