-- ==== Sys2Proof/WellFormed.lean ====
section
/-! DEFINITION. Which instructions are well-formed: the conditions the rows of spec/opcode_table.json put on their fields, and
the bound on a payload presented to ENC (40_encode_command.md R84). -/

namespace Sys2Proof

/-- The conditions on an instruction's fields. An opcode of a length other than 4 is no ill-formed operand: it is presented
and rejected with `InvalidOpcode` (R80, R82). -/
def Instr.wellFormed : Instr → Bool
  | .init _ => true
  | .rspi _ => true
  | .rrai _ => true
  | .gnfd _ => true
  | .gbye => true
  | .ackOk _ => true
  | .ackNotAcknowledged _ status => status != 0
  | .hdrNoTarget h => h.noTarget
  | .hdrTarget h => !h.noTarget
  | .pld _ _ _ _ => true
  | .encodeCommand _ payload => payload.length ≤ Config.payloadMax
  | .decodeAck _ => true
  | .decodeDetection _ _ => true

end Sys2Proof
end

