-- ==== Sys2Proof/Decode.lean ====
section
/-! DEFINITION. The wire formats of spec/30_encoding.md: a total decoder that rejects by name, told by the host's place in the
exchange which of the four formats it reads (20_memory.md R42), the encoder beside it, and the parse of any command frame
(30_encoding.md R71). -/

namespace Sys2Proof

/-- The four frame formats (30_encoding.md R50). -/
inductive Format where
  | cmd
  | ack
  | hdr
  | pld
deriving DecidableEq, Repr

/-- Why a byte sequence is no frame of the format asked for. -/
inductive DecodeError where
  /-- Fewer bytes than the format has (30_encoding.md R50, R71; 20_memory.md R38). -/
  | tooShort
  /-- More bytes than the format has (41_decode_ack.md R95 for an ack). -/
  | tooLong
  /-- A command frame whose length field is not the length of its payload (30_encoding.md R51, R71). -/
  | lengthField
  /-- A command frame with a tag outside the five (43_command_set.md R127). -/
  | unknownTag
  /-- A command frame of the five whose payload has not the command's length (30_encoding.md R70). -/
  | payloadLength
deriving DecidableEq, Repr

/-- A command frame, built: the tag, the length of the payload, the payload (30_encoding.md R51). -/
def commandFrame (opcode payload : Bytes) : Bytes := opcode ++ LE32 payload.length ++ payload

/-- The length of what stands before the payload of a command frame (30_encoding.md R51). -/
def commandHead : Nat := Config.opcodeLen + Config.lenFieldBytes

/-- What the length field of a command frame says (30_encoding.md R52). -/
def lengthField (f : Bytes) : Nat := leNat ((f.drop Config.opcodeLen).take Config.lenFieldBytes)

/-- The inverse of R51 on any bytes: the tag and the payload of a well-formed command frame (30_encoding.md R71). -/
def parseCommandFrame (f : Bytes) : Except DecodeError (Bytes × Bytes) :=
  if f.length < commandHead + lengthField f then .error .tooShort
  else if commandHead + lengthField f < f.length then .error .lengthField
  else .ok (f.take Config.opcodeLen, f.drop commandHead)

/-- The command a tag and a payload stand for (30_encoding.md R68). -/
def commandOf (tag payload : Bytes) : Except DecodeError Instr :=
  if tag = Config.tagInit then
    (match ByteVec.ofBytes Config.valueLen payload with | some p => .ok (.init p) | none => .error .payloadLength)
  else if tag = Config.tagRspi then
    (match ByteVec.ofBytes Config.valueLen payload with | some p => .ok (.rspi p) | none => .error .payloadLength)
  else if tag = Config.tagRrai then
    (match ByteVec.ofBytes Config.valueLen payload with | some p => .ok (.rrai p) | none => .error .payloadLength)
  else if tag = Config.tagGnfd then
    (match ByteVec.ofBytes Config.descriptorLen payload with | some g => .ok (.gnfd g) | none => .error .payloadLength)
  else if tag = Config.tagGbye then (match payload with | [] => .ok .gbye | _ => .error .payloadLength)
  else .error .unknownTag

/-- A command frame read as one of the five commands. -/
def decodeCmd (f : Bytes) : Except DecodeError Instr :=
  match parseCommandFrame f with
  | .ok (tag, payload) => commandOf tag payload
  | .error e => .error e

/-- The rejection of bytes whose number is not the format's (30_encoding.md R72). -/
def wrongLength (n : Nat) (f : Bytes) : DecodeError := if f.length < n then .tooShort else .tooLong

/-- An ack: the row `ACK.ok` is tried first (30_encoding.md R55, R74). -/
def decodeAckFrame (f : Bytes) : Except DecodeError Instr :=
  match f[Config.ackStatusOffset]?, ByteVec.ofBytes Config.ackIgnoredLen (f.eraseIdx Config.ackStatusOffset) with
  | some status, some a => .ok (if status = 0 then .ackOk a else .ackNotAcknowledged a status)
  | _, _ => .error (wrongLength Config.ackLen f)

/-- A detection header: the row `HDR.no_target` is tried first (30_encoding.md R58, R59, R74). -/
def decodeHdr (f : Bytes) : Except DecodeError Instr :=
  match ByteVec.ofBytes Config.hdrLen f with
  | some h => .ok (if Header.noTarget h then .hdrNoTarget h else .hdrTarget h)
  | none => .error (wrongLength Config.hdrLen f)

/-- A detection payload: four fields at their offsets (30_encoding.md R61 to R65). -/
def decodePld (f : Bytes) : Except DecodeError Instr :=
  if f.length = Config.detPayloadLen then .ok (.pld (le16At f 0) (le16At f 2) (le16At f 4) (le16At f 6))
  else .error (wrongLength Config.detPayloadLen f)

/-- The frame of a known format, decoded. -/
def decodeFrame : Format → Bytes → Except DecodeError Instr
  | .cmd, f => decodeCmd f
  | .ack, f => decodeAckFrame f
  | .hdr, f => decodeHdr f
  | .pld, f => decodePld f

/-- The bytes of an instruction that is a frame. The three operations have no encoding (30_encoding.md R69). -/
def encode : Instr → Option Bytes
  | .init p => some (commandFrame Config.tagInit p.bytes)
  | .rspi p => some (commandFrame Config.tagRspi p.bytes)
  | .rrai p => some (commandFrame Config.tagRrai p.bytes)
  | .gnfd g => some (commandFrame Config.tagGnfd g.bytes)
  | .gbye => some (commandFrame Config.tagGbye [])
  | .ackOk a => some (ackFrame a 0)
  | .ackNotAcknowledged a status => some (ackFrame a status)
  | .hdrNoTarget h => some h.bytes
  | .hdrTarget h => some h.bytes
  | .pld d s a m => some (Half.toBytes d ++ Half.toBytes s ++ Half.toBytes a ++ Half.toBytes m)
  | .encodeCommand _ _ => none
  | .decodeAck _ => none
  | .decodeDetection _ _ => none

/-- The format of an instruction that is a frame (30_encoding.md R74). -/
def Instr.format : Instr → Option Format
  | .init _ => some .cmd
  | .rspi _ => some .cmd
  | .rrai _ => some .cmd
  | .gnfd _ => some .cmd
  | .gbye => some .cmd
  | .ackOk _ => some .ack
  | .ackNotAcknowledged _ _ => some .ack
  | .hdrNoTarget _ => some .hdr
  | .hdrTarget _ => some .hdr
  | .pld _ _ _ _ => some .pld
  | .encodeCommand _ _ => none
  | .decodeAck _ => none
  | .decodeDetection _ _ => none

/-- The length of the longest command frame, `GNFD` (30_encoding.md R68). -/
def longestFrame : Nat := commandHead + Config.descriptorLen

/-- A command read from a word: the frame is as long as its length field says, its bytes above the word zero. -/
def decodeCmdWord (n w : Nat) : Option Instr :=
  let bytes := leBytes longestFrame (w % 2 ^ (8 * n))
  let len := commandHead + lengthField bytes
  if n ≤ len ∧ len ≤ longestFrame then (decodeCmd (bytes.take len)).toOption else none

/-- The instruction a word of `nbits` bits stands for. The bytes of a frame do not say which format they have (20_memory.md
R42), so the length decides: nine bytes are an ack; eight bytes are a command where tag and length say so, else a detection
header (a payload of eight bytes has the same words and is read only where the host awaits one, by `decodeFrame`; log 25). -/
def decodeTableWord (nbits w : Nat) : Option Instr :=
  let n := (nbits + 7) / 8
  if n = Config.ackLen then (decodeAckFrame (leBytes n w)).toOption
  else
    match decodeCmdWord n w with
    | some i => some i
    | none => if n = Config.hdrLen then (decodeHdr (leBytes n w)).toOption else none

end Sys2Proof
end

