-- ==== Sys2Proof/Machine/Units.lean ====
section
/-! DEFINITION. The three units of the block as functions of their operands (spec/10_state.md R10): ENC
(40_encode_command.md), ACK (41_decode_ack.md) and DET (42_decode_detection.md). -/

namespace Sys2Proof.Machine

/-- `encode_command` (40_encode_command.md R81): the length of the opcode is the only check (R82, R83). -/
def encodeCommand (opcode payload : Bytes) : EncResult :=
  if opcode.length = Config.opcodeLen then .frame (commandFrame opcode payload) else .invalidOpcode

/-- The verdict of a status byte (41_decode_ack.md R93 to R95): the whole byte is compared with 0. -/
def ackVerdict (bytes : Bytes) : AckVerdict :=
  if bytes[Config.ackStatusOffset]? = some 0 then .ok else .notAcknowledged

/-- `decode_ack` (41_decode_ack.md R96): the length is judged first, the status byte second. -/
def decodeAck (bytes : Bytes) : AckOutcome :=
  if bytes.length = 0 then .timeout
  else if bytes.length < Config.ackLen then .shortRead
  else if bytes.length = Config.ackLen then
    match ackVerdict bytes with
    | .ok => .ok
    | .notAcknowledged => .notAcknowledged
  else .excessBytes (ackVerdict bytes)

/-- The Target of four raw fields (42_decode_detection.md R103 to R112). -/
def targetOf (N : Numerics) (distance speed angle magnitude : Half) : Target where
  distanceCm := unsignedField distance
  speedKmh := speedField speed
  angleDeg := angleField angle
  magnitude := unsignedField magnitude
  xCm := projectX N (unsignedField distance) (angleField angle)
  yCm := projectY N (unsignedField distance) (angleField angle)

/-- What DET makes of the bytes its take returned (42_decode_detection.md R102, R103): eight bytes are a Target, fewer are
`TruncatedPayload`. -/
def detectionOf (N : Numerics) (payload : Bytes) : DetResult :=
  match decodePld payload with
  | .ok (.pld d s a m) => .some (targetOf N d s a m)
  | _ => .truncatedPayload

/-- `Take` from a finite reader (20_memory.md R36; 10_state.md R20): no I/O, the position advances by what is returned. -/
def Reader.take (r : Reader) (n : Nat) : Bytes × Reader :=
  let got := (r.bytes.drop r.pos).take n
  (got, { r with pos := r.pos + got.length })

/-- `decode_detection` on a finite reader (42_decode_detection.md R113). -/
def decodeDetection (N : Numerics) (header : Header) (r : Reader) : DetResult × Reader :=
  if header.noTarget then (.none, r)
  else
    let (payload, r') := r.take Config.detPayloadLen
    (detectionOf N payload, r')

end Sys2Proof.Machine
end

