-- ==== Sys2Proof/Machine/Ops.lean ====
section
/-! DEFINITION. The named operations the meanings share: the small updates of State, the five transport primitives
(spec/60_exceptions.md R186 to R190; `Put` and `Take` of 20_memory.md R35, R36), the fatal transitions of the session
(44_host_session.md R143, R161), and the host's reaction to each event of 44_host_session.md R165. -/

namespace Sys2Proof.Machine

/-! ## Small updates -/

/-- The output ports take the result of this step (10_state.md R11); `none` where no unit returned one. -/
def State.answer (s : State) (r : Option PortResult) : State := { s with result := r }

/-- One effect more in the trace (44_host_session.md R141). -/
def State.log (s : State) (e : Effect) : State := { s with trace := s.trace ++ [e] }

/-- `state <- S` (00_scope.md section 6.4). -/
def State.enter (s : State) (st : SessionState) : State := { s with session := st }

/-- The host's place in the exchange becomes `p`. -/
def State.setPhase (s : State) (p : Phase) : State := { s with phase := p }

/-! ## The oracle -/

/-- What the oracle chooses at the next call of a primitive: the first listed reply, else a free value (log 1, 2). -/
def State.nextReply (s : State) : Reply :=
  match s.replies with
  | r :: _ => r
  | [] => Config.reply s.draws

/-- The state once the oracle's choice for one call is used up: the sensor's bytes are at the back of `rx` and the caller's
cancellation is set and never cleared (10_state.md R19, R20, R21). -/
def State.useReply (s : State) : State :=
  { s with
    replies := s.replies.tail
    draws := if s.replies.isEmpty then s.draws + 1 else s.draws
    rx := s.rx ++ s.nextReply.arrived
    cancelRequested := s.cancelRequested || s.nextReply.cancel }

/-! ## The five primitives -/

/-- `open(port, BAUD_INIT, EVEN, 1, 8, 2 s)` (60_exceptions.md R186): whether it succeeded, and the state.
DESIGN CHOICE: a call that fails leaves `baud`, `port` and `framing` as they were, and makes no handle (log 35). -/
def State.openPort (s : State) (port : Nat) : Bool × State :=
  let ok := !s.nextReply.ioError
  let s' := s.useReply.log (.opened port Config.baudInit serialFraming ok)
  if ok then
    (true, { s' with
      handle := some (Config.freshHandle s'.draws)
      draws := s'.draws + 1
      baud := some Config.baudInit
      port := some port
      framing := serialFraming })
  else (false, s')

/-- `write(handle, bytes)`, which is `Put` (R187; 20_memory.md R35): all the bytes or none. -/
def State.write (s : State) (bytes : Bytes) : Bool × State :=
  let ok := !s.nextReply.ioError
  let s' := s.useReply.log (.wrote bytes ok)
  if ok then (true, { s' with tx := s'.tx ++ bytes }) else (false, s')

/-- `read(handle, n)`, which is `Take` (R188; 20_memory.md R36): the bytes it returned, none where it failed. DESIGN CHOICE: how
much of `rx` a failing read has consumed, what the sensor appended by then counted in, is the oracle's choice (log 33). -/
def State.read (s : State) (n : Nat) : Option Bytes × State :=
  let s' := s.useReply
  if s.nextReply.ioError then (none, { s'.log (.took n none) with rx := s'.rx.drop s.nextReply.lost })
  else (some (s'.rx.take n), { s'.log (.took n (some (s'.rx.take n))) with rx := s'.rx.drop n })

/-- `set_baud(handle, rate)` (R189). What becomes of the bytes in `rx` is the oracle's choice (U22), also where the call fails.
DESIGN CHOICE: a failing call leaves `baud` (log 21). -/
def State.setBaud (s : State) (rate : Nat) : Bool × State :=
  let ok := !s.nextReply.ioError
  let s' := { s.useReply.log (.baudSet rate ok) with rx := s.nextReply.rewritten.getD s.useReply.rx }
  if ok then (true, { s' with baud := some rate }) else (false, s')

/-- `close(handle)` (R190). Its failure is ignored on every path (44_host_session.md R159, R161). -/
def State.closePort (s : State) : State :=
  { s.useReply.log (.closed (!s.nextReply.ioError)) with handle := none }

/-! ## The end of a session -/

/-- The session ends in `Disconnected`: its outcome is set and the records are handed over (44_host_session.md R160). -/
def State.finish (s : State) (o : SessionOutcome) : State :=
  { s.log (.handedOver s.records o) with
    session := .disconnected
    phase := .ready
    sessionOutcome := some o }

/-- The frame of `GBYE` (43_command_set.md R125). -/
def gbyeFrame : Bytes := commandFrame Config.tagGbye []

/-- The put and take of `GBYE` (43_command_set.md R125): the response is dropped; a failed put skips the take, and no failure
is reported (44_host_session.md R159; log 20 for the fatal path). -/
def State.sayGoodbye (s : State) : State :=
  match s.write gbyeFrame with
  | (true, s') => (s'.read Config.ackLen).2
  | (false, s') => s'

/-- `InitializationFailed` (44_host_session.md R143): no `GBYE`; close; `Disconnected`. -/
def State.failInitialization (s : State) : State := s.closePort.finish .initializationFailed

/-- `TransportError` while a handle exists (44_host_session.md R161): `GBYE` attempted once if and only if the transport is
usable; close; `Disconnected`. The result port keeps what the step showed before: it does not show this `GBYE` (log 23). -/
def State.raiseTransportError (s : State) : State :=
  let s' := if s.transportUsable then s.sayGoodbye else s
  s'.closePort.finish .transportError

/-- A failed `open` (44_host_session.md R161, D28): `TransportError` in `Disconnected`; nothing sent, nothing to close.
What the transport then holds of `baud`, `port` and `framing` is as the failed call left it (log 35). -/
def State.failOpen (s : State) : State := s.finish .transportError

/-- An `IoError` of a `write`, `read` or `set_baud` (44_host_session.md R165): fatal in the four states of a running session,
ignored in `ShuttingDown`. -/
def State.ioFailure (s : State) : State :=
  match s.session with
  | .disconnected => s.setPhase .ready
  | .initializing => s.raiseTransportError
  | .configuringSpeed => s.raiseTransportError
  | .configuringRange => s.raiseTransportError
  | .streaming => s.raiseTransportError
  | .shuttingDown => s.setPhase .ready

/-! ## Exchanges -/

/-- The first half of an exchange (43_command_set.md R120): the frame is put whole and its ack is awaited. -/
def State.sendCommand (s : State) (frame : Bytes) : State :=
  match s.write frame with
  | (true, s') => s'.setPhase .awaitAck
  | (false, s') => s'.ioFailure

/-- One warning where the ack failed (44_host_session.md R147, R149, R152). -/
def State.warnUnlessOk (s : State) (step : WarnStep) (o : AckOutcome) : State :=
  if o.failed then s.log (.warned step (.ack o)) else s

/-- The settle delay and the baud raise after `INIT` (44_host_session.md R144, R145). -/
def State.raiseBaud (s : State) : State :=
  match (s.log (.settled Config.settleDelayMs)).setBaud Config.baudHigh with
  | (true, s') => s'.setPhase .ready
  | (false, s') => s'.ioFailure

/-- The event `Ack(outcome)` (44_host_session.md R165): what the host does with the outcome of the exchange in flight. -/
def State.onAck (s : State) (o : AckOutcome) : State :=
  match s.session with
  | .disconnected => s.setPhase .ready
  | .initializing => if o.failed then s.failInitialization else s.raiseBaud
  | .configuringSpeed => (s.warnUnlessOk .rspi o).setPhase .ready
  | .configuringRange => ((s.warnUnlessOk .rrai o).setPhase .ready).enter .streaming
  | .streaming => (s.warnUnlessOk .gnfd o).setPhase (if o.failed then .ready else .awaitHeader)
  | .shuttingDown => s.setPhase .ready

/-- ACK judges the bytes of a take (41_decode_ack.md R96), and the host reacts if it awaits an ack. -/
def State.judgeAck (s : State) (bytes : Bytes) : State :=
  let o := decodeAck bytes
  let s' := s.answer (some (.ack o))
  if s.phase = .awaitAck then s'.onAck o else s'

/-- The event `Header(bytes)` with fewer than eight bytes (44_host_session.md R154): one warning, the cycle is abandoned. -/
def State.onShortHeader (s : State) (bytes : Bytes) : State :=
  ((s.answer none).log (.warned .header (if bytes.length = 0 then .timeout else .shortRead))).setPhase .ready

/-- The event `Decoded(result)` (44_host_session.md R155 to R157): the end of a cycle. -/
def State.onDecoded (s : State) (r : DetResult) : State :=
  match s.session with
  | .streaming =>
    match r with
    | .none => (s.log .handedNoTarget).setPhase .ready
    | .some t =>
      let rec' : Record := ⟨t, Config.timestamp s.draws⟩
      ({ s with records := s.records ++ [rec'], draws := s.draws + 1 }.log (.handedTarget rec')).setPhase .ready
    | .truncatedPayload => (s.log (.warned .payload .truncatedPayload)).setPhase .ready
  | .disconnected => s.setPhase .ready
  | .initializing => s.setPhase .ready
  | .configuringSpeed => s.setPhase .ready
  | .configuringRange => s.setPhase .ready
  | .shuttingDown => s.setPhase .ready

/-- DET returns `r`, and the host reacts if it is at place `p` of the exchange. -/
def State.deliver (s : State) (p : Phase) (r : DetResult) : State :=
  let s' := s.answer (some (.det r))
  if s.phase = p then s'.onDecoded r else s'

/-- DET tests the flag of a header (42_decode_detection.md R101, R102): without a target the result is `None` and nothing is
taken; with one, the payload take is next where the host awaits the header. -/
def State.testHeader (s : State) (h : Header) : State :=
  if h.noTarget then s.deliver .awaitHeader .none
  else
    let s' := s.answer none
    if s.phase = .awaitHeader then s'.setPhase .awaitPayload else s'

end Sys2Proof.Machine
end

