-- ==== Sys2Proof/Machine/Block.lean ====
section
/-! DEFINITION. The meanings of the three operations of the block when they are invoked by themselves, at any time, in or out
of a session (spec/70_reset_and_hazards.md R201). -/

namespace Sys2Proof.Machine

/-- `encode_command` (40_encode_command.md R81): the length of the opcode is checked before anything else (R82); a longer
payload than `PAYLOAD_MAX` cannot be presented (R84). -/
def execEncodeCommand (opcode payload : Bytes) (s : State) : Host.Outcome State Fault Refusal :=
  if opcode.length = Config.opcodeLen ∧ Config.payloadMax < payload.length then .refused .payloadTooLong
  else .next (s.answer (some (.enc (encodeCommand opcode payload))))

/-- `decode_ack` (41_decode_ack.md R96): no state is read or written (R97). -/
def execDecodeAck (bytes : Bytes) (s : State) : Host.Outcome State Fault Refusal :=
  .next (s.answer (some (.ack (decodeAck bytes))))

/-- `decode_detection` whose reader is the receive stream (42_decode_detection.md R100, R113), the whole operation in one step:
the take is the transport's `read`, so it needs a handle and may fail with `IoError` (60_exceptions.md R177). -/
def detectFromStream (header : Header) (s : State) : Host.Outcome State Fault Refusal :=
  if header.noTarget then .next (s.deliver .awaitHeader .none)
  else if s.handle.isNone then .fault .transportNotOpen
  else
    match s.read Config.detPayloadLen with
    | (none, s') => .next (s'.answer none).ioFailure
    | (some payload, s') => .next (s'.deliver .awaitHeader (detectionOf Config.numerics payload))

/-- `decode_detection` whose reader is a finite byte sequence (10_state.md R20): the host takes no part. -/
def detectFromReader (header : Header) (s : State) : State :=
  let (r, reader) := decodeDetection Config.numerics header s.reader
  { s.answer (some (.det r)) with reader := reader }

/-- `decode_detection` (42_decode_detection.md R113). -/
def execDecodeDetection (header : Header) (source : Source) (s : State) : Host.Outcome State Fault Refusal :=
  match source with
  | .stream => detectFromStream header s
  | .reader => .next (detectFromReader header s)

end Sys2Proof.Machine
end

