-- ==== Sys2Proof/Machine/Commands.lean ====
section
/-! DEFINITION. The meanings of the five commands (spec/43_command_set.md R121 to R125): each is the put of its frame, with the
transition of the session that sends it (44_host_session.md R142 to R159). The ack of the first four is awaited and comes as an
instruction of its own, or as a short take. -/

namespace Sys2Proof.Machine

/-- The frame ENC returns for a command, on its output port (43_command_set.md R120). -/
def State.built (s : State) (tag payload : Bytes) : State := s.answer (some (.enc (encodeCommand tag payload)))

/-- Whether the host sends a command in session state `st` (43_command_set.md R127): no exchange is in flight, the session
runs, and the transport is open. -/
def State.mayCommand (s : State) (st : SessionState) : Bool :=
  s.session = st && s.phase = .ready && s.handle.isSome && s.sessionOutcome.isNone

/-- `INIT` (43_command_set.md R121; 44_host_session.md R142, R164): `open`, then `Initializing`, the frame built and put. A failed
`open` is `TransportError` in `Disconnected` (D28); ENC is not invoked and the result port is clear. -/
def execInit (p : Value) (s : State) : Host.Outcome State Fault Refusal :=
  if s.sessionOutcome.isSome then .refused .sessionFinished
  else if s.session = .disconnected ∧ s.phase = .ready then
    match s.startEvent with
    | none => .refused .commandOutOfSequence
    | some port =>
      match ({ s with startEvent := none } : State).openPort port with
      | (true, s') =>
        .next (((s'.built Config.tagInit p.bytes).enter .initializing).sendCommand
          (commandFrame Config.tagInit p.bytes))
      | (false, s') => .next (s'.answer none).failOpen
  else .refused .commandOutOfSequence

/-- `RSPI` (43_command_set.md R122; 44_host_session.md R146): sent once the `INIT` ack was `Ok` and the baud is raised;
`ConfiguringSpeed` is entered as it is put (D36). -/
def execRspi (p : Value) (s : State) : Host.Outcome State Fault Refusal :=
  if s.mayCommand .initializing then
    .next (((s.built Config.tagRspi p.bytes).enter .configuringSpeed).sendCommand (commandFrame Config.tagRspi p.bytes))
  else .refused .commandOutOfSequence

/-- `RRAI` (43_command_set.md R123; 44_host_session.md R149): `ConfiguringRange` is entered as it is put. -/
def execRrai (p : Value) (s : State) : Host.Outcome State Fault Refusal :=
  if s.mayCommand .configuringSpeed then
    .next (((s.built Config.tagRrai p.bytes).enter .configuringRange).sendCommand (commandFrame Config.tagRrai p.bytes))
  else .refused .commandOutOfSequence

/-- `GNFD` (43_command_set.md R124; 44_host_session.md R151): the start of a cycle, while no cancellation is requested
(60_exceptions.md R178). -/
def execGnfd (g : Descriptor) (s : State) : Host.Outcome State Fault Refusal :=
  if s.mayCommand .streaming && !s.cancelRequested then
    .next ((s.built Config.tagGnfd g.bytes).sendCommand (commandFrame Config.tagGnfd g.bytes))
  else .refused .commandOutOfSequence

/-- `GBYE` (43_command_set.md R125; 44_host_session.md R158): on a cancellation seen between cycles; `ShuttingDown` is entered,
the frame is put and any response is dropped. The `GBYE` of a fatal path is part of `State.raiseTransportError`. -/
def execGbye (s : State) : Host.Outcome State Fault Refusal :=
  if s.mayCommand .streaming && s.cancelRequested then
    .next (((s.built Config.tagGbye []).enter .shuttingDown).sayGoodbye)
  else .refused .commandOutOfSequence

end Sys2Proof.Machine
end

