-- ==== Sys2Proof/Machine/Received.lean ====
section
/-! DEFINITION. The meanings of the received frames: the unit that reads the frame gives its result, and the host reacts as
spec/44_host_session.md R165 says if it is at that place of the exchange (20_memory.md R42). -/

namespace Sys2Proof.Machine

/-- `ACK.ok` (41_decode_ack.md R93). -/
def execAckOk (a : AckBytes) (s : State) : Host.Outcome State Fault Refusal :=
  .next (s.judgeAck (ackFrame a 0))

/-- `ACK.not_acknowledged` (41_decode_ack.md R94). -/
def execAckNotAcknowledged (a : AckBytes) (status : Byte) (s : State) : Host.Outcome State Fault Refusal :=
  .next (s.judgeAck (ackFrame a status))

/-- `HDR.no_target` (42_decode_detection.md R101). -/
def execHdrNoTarget (h : Header) (s : State) : Host.Outcome State Fault Refusal :=
  .next (s.testHeader h)

/-- `HDR.target` (42_decode_detection.md R102): one payload is read next. -/
def execHdrTarget (h : Header) (s : State) : Host.Outcome State Fault Refusal :=
  .next (s.testHeader h)

/-- `PLD` (42_decode_detection.md R103 to R112): the Target of the four fields. -/
def execPld (distance speed angle magnitude : Half) (s : State) : Host.Outcome State Fault Refusal :=
  .next (s.deliver .awaitPayload (.some (targetOf Config.numerics distance speed angle magnitude)))

end Sys2Proof.Machine
end

