-- ==== Sys2Proof/Machine/Dispatch.lean ====
section
/-! DEFINITION. The dispatch: one arm for each row of spec/opcode_table.json. -/

namespace Sys2Proof.Machine

def exec (i : Instr) (s : State) : Host.Outcome State Fault Refusal :=
  match i with
  | .init p => Sys2Proof.Machine.execInit p s
  | .rspi p => Sys2Proof.Machine.execRspi p s
  | .rrai p => Sys2Proof.Machine.execRrai p s
  | .gnfd g => Sys2Proof.Machine.execGnfd g s
  | .gbye => Sys2Proof.Machine.execGbye s
  | .ackOk a => Sys2Proof.Machine.execAckOk a s
  | .ackNotAcknowledged a status => Sys2Proof.Machine.execAckNotAcknowledged a status s
  | .hdrNoTarget h => Sys2Proof.Machine.execHdrNoTarget h s
  | .hdrTarget h => Sys2Proof.Machine.execHdrTarget h s
  | .pld distance speed angle magnitude => Sys2Proof.Machine.execPld distance speed angle magnitude s
  | .encodeCommand opcode payload => Sys2Proof.Machine.execEncodeCommand opcode payload s
  | .decodeAck bytes => Sys2Proof.Machine.execDecodeAck bytes s
  | .decodeDetection header source => Sys2Proof.Machine.execDecodeDetection header source s

end Sys2Proof.Machine
end

