-- ==== Sys2Proof/Machine/Fetch.lean ====
section
/-! DEFINITION. What the next step is (spec/10_state.md R14: no program counter; the host's state and its place in the exchange
decide): an operation presented to the block, a command the host sends, a frame taken from `rx` and decoded by the host's place
(20_memory.md R42), or a step of the host that is no instruction. Also where an instruction is placed so that it is fetched
next. -/

namespace Sys2Proof.Machine

/-- What `fetch` finds. -/
inductive Fetched where
  /-- An instruction, and the state once its bytes are taken. -/
  | run (i : Instr) (s : State)
  /-- A step of the host that is no row of the opcode table, done. -/
  | host (s : State)
  /-- Nothing more runs. -/
  | stop (r : Refusal)
  /-- A primitive is called with no handle. -/
  | broken (f : Fault)

/-- The operation a call asks for. -/
def Call.instr : Call → Instr
  | .encode opcode payload => .encodeCommand opcode payload
  | .ack bytes => .decodeAck bytes
  | .detection header source => .decodeDetection header source

/-- The step of the host when no exchange is in flight: the next command of the procedure of 44_host_session.md R164, waiting
for `Start`, or `close` after `GBYE` (R159). The cancellation is looked at between cycles only (60_exceptions.md R178). -/
def fetchReady (s : State) : Fetched :=
  match s.session with
  | .disconnected =>
    if s.sessionOutcome.isSome then .stop .sessionFinished
    else if s.startEvent.isSome then .run (.init s.payloads.init) s
    else .host (s.answer none)
  | .initializing => .run (.rspi s.payloads.rspi) s
  | .configuringSpeed => .run (.rrai s.payloads.rrai) s
  | .configuringRange => .host ((s.answer none).enter .streaming)
  | .streaming => if s.cancelRequested then .run .gbye s else .run (.gnfd s.payloads.gnfd) s
  | .shuttingDown => .host ((s.answer none).closePort.finish .normal)

/-- A take of `n` bytes from `rx` (43_command_set.md R120; 44_host_session.md R153): an `IoError` pre-empts what the take would
have returned (60_exceptions.md R179). The bytes are a frame of format `f`, or `short` says what the host does with them. -/
def fetchFrame (s : State) (f : Format) (n : Nat) (short : Bytes → State → State) : Fetched :=
  if s.handle.isNone then .broken .transportNotOpen
  else
    match s.read n with
    | (none, s') => .host (s'.answer none).ioFailure
    | (some bytes, s') =>
      match decodeFrame f bytes with
      | .ok i => .run i s'
      | .error _ => .host (short bytes s')

/-- The next step of the session. A short ack is judged by ACK (41_decode_ack.md R91, R92), a short header is the host's
business (44_host_session.md R154), a short payload is `TruncatedPayload` (42_decode_detection.md R102). -/
def fetchSession (s : State) : Fetched :=
  match s.phase with
  | .ready => fetchReady s
  | .awaitAck => fetchFrame s .ack Config.ackLen fun bytes s' => s'.judgeAck bytes
  | .awaitHeader => fetchFrame s .hdr Config.hdrLen fun bytes s' => s'.onShortHeader bytes
  | .awaitPayload =>
    fetchFrame s .pld Config.detPayloadLen fun bytes s' => s'.deliver .awaitPayload (detectionOf Config.numerics bytes)

/-- The next step: an operation presented to the block goes first (70_reset_and_hazards.md R201; log 19). -/
def fetch (s : State) : Fetched :=
  match s.calls with
  | c :: cs => .run c.instr { s with calls := cs }
  | [] => fetchSession s

/-! ## Placing an instruction -/

/-- A running session at the given state and place, with nothing presented to the block. -/
def State.running (s : State) (st : SessionState) (p : Phase) (cancel : Bool) : State :=
  { s with
    session := st
    phase := p
    baud := some Config.baudHigh
    handle := some (s.handle.getD 0)
    port := some (s.port.getD 0)
    framing := serialFraming
    sessionOutcome := none
    cancelRequested := cancel
    calls := []
    replies := .quiet :: .quiet :: s.replies }

/-- A session not yet started, its `Start` pending and nothing presented to the block. -/
def State.unstarted (s : State) : State :=
  { s with
    session := .disconnected
    phase := .ready
    baud := none
    handle := none
    port := none
    framing := serialFraming
    sessionOutcome := none
    calls := []
    startEvent := some (s.startEvent.getD 0)
    replies := .quiet :: .quiet :: s.replies }

/-- The state with a received frame at the front of `rx`, awaited. -/
def State.receiving (s : State) (p : Phase) (frame : Bytes) : State :=
  { s.running .streaming p false with rx := frame ++ s.rx }

/-- The state in which the very next step fetches `i`: the host at the place where it sends or awaits that frame, with the
command's payload in the session's constants or the received bytes at the front of `rx`; an operation is presented at the
block's ports (log 26). -/
def State.placed (s : State) (i : Instr) : State :=
  match i with
  | .init p => { s.unstarted with payloads := { s.payloads with init := p } }
  | .rspi p => { s.running .initializing .ready s.cancelRequested with payloads := { s.payloads with rspi := p } }
  | .rrai p => { s.running .configuringSpeed .ready s.cancelRequested with payloads := { s.payloads with rrai := p } }
  | .gnfd g => { s.running .streaming .ready false with payloads := { s.payloads with gnfd := g } }
  | .gbye => s.running .streaming .ready true
  | .ackOk a => s.receiving .awaitAck (ackFrame a 0)
  | .ackNotAcknowledged a status => s.receiving .awaitAck (ackFrame a status)
  | .hdrNoTarget h => s.receiving .awaitHeader h.bytes
  | .hdrTarget h => s.receiving .awaitHeader h.bytes
  | .pld d sp a m =>
    s.receiving .awaitPayload (Half.toBytes d ++ Half.toBytes sp ++ Half.toBytes a ++ Half.toBytes m)
  | .encodeCommand opcode payload => { s with calls := .encode opcode payload :: s.calls }
  | .decodeAck bytes => { s with calls := .ack bytes :: s.calls }
  | .decodeDetection header source => { s with calls := .detection header source :: s.calls }

end Sys2Proof.Machine
end

