-- ==== Sys2Proof/Safety.lean ====
section
/-! DEFINITION. What a claim calls a proper state: the relations between the fields of State that every run of the session
keeps (spec/10_state.md R15 to R19; 44_host_session.md R140 to R165), and which bytes `tx` may hold. -/

namespace Sys2Proof.Safety

open Sys2Proof.Machine

/-- The state in which the session has been created and has not begun. -/
def unstarted (s : State) : Prop := s.session = .disconnected ∧ s.sessionOutcome = none

/-- The session's fields fit together. -/
structure SessionInv (s : State) : Prop where
  /-- A handle exists from `open` until `close` (10_state.md R16). -/
  handle_open : s.handle.isSome = true ↔ s.session ≠ .disconnected
  /-- An ack is awaited only where a command with a judged ack is in flight (44_host_session.md R165). -/
  ack_awaited : s.phase = .awaitAck →
    s.session = .initializing ∨ s.session = .configuringSpeed ∨ s.session = .configuringRange ∨ s.session = .streaming
  /-- A header or a payload is awaited only while streaming (R153). -/
  telemetry_awaited : s.phase = .awaitHeader ∨ s.phase = .awaitPayload → s.session = .streaming
  /-- `ConfiguringRange` is left as soon as its ack is in (R150). -/
  range_awaits : s.session = .configuringRange → s.phase = .awaitAck
  /-- An outcome is set only at the end (10_state.md R18). -/
  outcome_final : s.sessionOutcome ≠ none → s.session = .disconnected
  /-- There is no baud before `open` (10_state.md R27), and no port. -/
  unstarted_closed : unstarted s → s.baud = none ∧ s.port = none ∧ s.phase = .ready
  /-- The ack of `INIT` is awaited at the low rate (44_host_session.md R142). -/
  low_rate : s.session = .initializing → s.phase = .awaitAck → s.baud = some Config.baudInit
  /-- After it the rate is raised (R145). -/
  raised : s.session = .initializing → s.phase = .ready → s.baud = some Config.baudHigh
  /-- Every later state is at the high rate (R145). -/
  high_rate : s.session = .configuringSpeed ∨ s.session = .configuringRange ∨ s.session = .streaming ∨
    s.session = .shuttingDown → s.baud = some Config.baudHigh
  /-- The framing is fixed (10_state.md R22, R27; 60_exceptions.md R191). -/
  framed : s.framing = serialFraming
  /-- The port is the one `open` was given (10_state.md R22). -/
  port_open : s.session ≠ .disconnected → s.port ≠ none
  /-- Nothing is recorded before `Streaming` (44_host_session.md R150, R160). -/
  unrecorded : unstarted s ∨ s.session = .initializing ∨ s.session = .configuringSpeed ∨ s.session = .configuringRange →
    s.records = []
  /-- An `INIT` failure leaves no record and the low rate (R143). -/
  init_failed : s.sessionOutcome = some .initializationFailed → s.records = [] ∧ s.baud = some Config.baudInit
  /-- Shutting down follows a cancellation (R158). -/
  cancelled : s.session = .shuttingDown ∨ s.sessionOutcome = some .normal → s.cancelRequested = true

/-- The frames of a session in the order it puts them, `n` of them `GNFD` (44_host_session.md R164). -/
def setupBytes (p : Payloads) : Bytes :=
  commandFrame Config.tagInit p.init.bytes ++ commandFrame Config.tagRspi p.rspi.bytes ++
    commandFrame Config.tagRrai p.rrai.bytes

/-- `setupBytes` and then `n` `GNFD` frames. -/
def cycleBytes (p : Payloads) (n : Nat) : Bytes :=
  setupBytes p ++ (List.replicate n (commandFrame Config.tagGnfd p.gnfd.bytes)).flatten

/-- What a session may have put before it ends: nothing, or its first frames in order. -/
def SessionPrefix (p : Payloads) (b : Bytes) : Prop :=
  b = [] ∨ b = commandFrame Config.tagInit p.init.bytes ∨
    b = commandFrame Config.tagInit p.init.bytes ++ commandFrame Config.tagRspi p.rspi.bytes ∨
    ∃ n, b = cycleBytes p n

/-- `tx` holds whole frames of the session in their order, and at most one `GBYE`, last (43_command_set.md R128;
44_host_session.md R143, R159, R161). -/
def TxInv (s : State) : Prop :=
  match s.session, s.sessionOutcome with
  | .disconnected, none => s.tx = []
  | .disconnected, some .initializationFailed => s.tx = commandFrame Config.tagInit s.payloads.init.bytes
  | .disconnected, some .normal => ∃ n, s.tx = cycleBytes s.payloads n ∨ s.tx = cycleBytes s.payloads n ++ gbyeFrame
  | .disconnected, some .transportError =>
    ∃ b, SessionPrefix s.payloads b ∧ (s.tx = b ∨ s.tx = b ++ gbyeFrame)
  | .initializing, _ => s.tx = commandFrame Config.tagInit s.payloads.init.bytes
  | .configuringSpeed, _ =>
    s.tx = commandFrame Config.tagInit s.payloads.init.bytes ++ commandFrame Config.tagRspi s.payloads.rspi.bytes
  | .configuringRange, _ => s.tx = setupBytes s.payloads
  | .streaming, _ => ∃ n, s.tx = cycleBytes s.payloads n
  | .shuttingDown, _ => ∃ n, s.tx = cycleBytes s.payloads n ∨ s.tx = cycleBytes s.payloads n ++ gbyeFrame

/-- The fatal end of a session by `TransportError` (44_host_session.md R161): `goodbye` says whether the put of the courtesy
`GBYE` succeeds, should it be attempted. -/
def EndsInTransportError (s t : State) (goodbye : Bool) : Prop :=
  t.session = .disconnected ∧ t.phase = .ready ∧ t.sessionOutcome = some .transportError ∧ t.handle = none ∧
    t.records = s.records ∧ t.baud = s.baud ∧ t.port = s.port ∧ t.framing = s.framing ∧
    t.payloads = s.payloads ∧ t.calls = s.calls ∧ t.reader = s.reader ∧
    t.tx = (if s.transportUsable && goodbye then s.tx ++ gbyeFrame else s.tx) ∧
    t.trace.getLast? = some (.handedOver s.records .transportError)

/-- The session is in one of the four states in which an `IoError` is fatal (R161). -/
def Fragile (s : State) : Prop :=
  s.session = .initializing ∨ s.session = .configuringSpeed ∨ s.session = .configuringRange ∨ s.session = .streaming

/-- `r` is the binary64 datum nearest to the rational number `x`, the even one of two that are equally near
(00_scope.md section 6.3). -/
def Nearest (x : ℚ) (r : F64) : Prop :=
  r.isFinite ∧ ∀ c : F64, c.isFinite →
    |x - r.toRat| ≤ |x - c.toRat| ∧ (c.toRat ≠ r.toRat → |x - r.toRat| = |x - c.toRat| → r.frac % 2 = 0)

/-- The machine goes on: a next state. -/
def Advances (o : Host.Outcome State Fault Refusal) : Prop := ∃ t, o = .next t

end Sys2Proof.Safety
end

