-- ==== Sys2Proof/Certificates/Slice0/Obligations.lean ====
section
/-! DEFINITION. The statements for the provers. Each docstring names the rules of spec/ it formalises. -/

open Sys2Proof Sys2Proof.Machine Sys2Proof.Safety

/-! ## ENC -/

/-- 40_encode_command.md R81: the frame is the opcode, the little-endian length, the payload; an opcode of another length gives
`InvalidOpcode`; nothing but the result port of the state changes. -/
def Obligations.EncodeCommandReturnsFrame : Prop :=
  ∀ (opcode payload : Bytes) (s : State), payload.length ≤ Config.payloadMax →
    exec (.encodeCommand opcode payload) s = .next { s with
      result := some (.enc (if opcode.length ≠ 4 then .invalidOpcode
        else .frame (opcode ++ [BitVec.ofNat 8 payload.length, BitVec.ofNat 8 (payload.length / 256),
          BitVec.ofNat 8 (payload.length / 65536), BitVec.ofNat 8 (payload.length / 16777216)] ++ payload))) }

/-- 40_encode_command.md R82: `InvalidOpcode` when, and only when, the opcode's length is not 4, whatever the payload. That
no step of a session gives it is the spec's own inference in R82, from 43_command_set.md R121 to R125, and for a state whose port
already holds it that inference does not suffice: that a step in which no unit returns a result clears the port is the model's
choice (log 23). A step of a session is one with nothing presented to the block (log 19). -/
def Obligations.InvalidOpcodeIffWrongLength : Prop :=
  (∀ (opcode payload : Bytes) (s : State), opcode.length ≠ 4 →
    exec (.encodeCommand opcode payload) s = .next { s with result := some (.enc .invalidOpcode) }) ∧
  (∀ (opcode payload : Bytes) (s t : State), exec (.encodeCommand opcode payload) s = .next t →
    t.result = some (.enc .invalidOpcode) → opcode.length ≠ 4) ∧
  ∀ s t : State, s.calls = [] → step s = .next t → t.result ≠ some (.enc .invalidOpcode)

/-- 40_encode_command.md R84: `PAYLOAD_MAX` lies between 8 and 2^32 - 1, a longer payload is refused (the model's form of "cannot
be presented"), the length field never wraps, and the commands' payloads have at most 8 bytes. -/
def Obligations.PayloadBoundKeepsLengthExact : Prop :=
  8 ≤ Config.payloadMax ∧ Config.payloadMax ≤ 2 ^ 32 - 1 ∧
  (∀ (opcode payload : Bytes) (s : State), opcode.length = 4 → Config.payloadMax < payload.length →
    exec (.encodeCommand opcode payload) s = .refused .payloadTooLong) ∧
  (∀ n : Nat, n ≤ Config.payloadMax → ∃ b0 b1 b2 b3 : Byte, LE32 n = [b0, b1, b2, b3] ∧ le32 b0 b1 b2 b3 = n) ∧
  ∀ (i : Instr) (tag payload : Bytes), i.format = some .cmd → encode i = some (commandFrame tag payload) → tag.length = 4 →
    payload.length ≤ 8

/-- 40_encode_command.md R85: length, totality, injectivity, well-formedness and prefix of the encoder's frames. -/
def Obligations.EncoderLaws : Prop :=
  (∀ o p f, encodeCommand o p = .frame f → f.length = 8 + p.length) ∧
  (∀ o p, (∃ f, encodeCommand o p = .frame f) ∨ encodeCommand o p = .invalidOpcode) ∧
  (∀ o₁ p₁ o₂ p₂ f, encodeCommand o₁ p₁ = .frame f → encodeCommand o₂ p₂ = .frame f → o₁ = o₂ ∧ p₁ = p₂) ∧
  (∀ o p f, p.length ≤ Config.payloadMax → encodeCommand o p = .frame f → parseCommandFrame f = .ok (o, p)) ∧
  ∀ o p p' f f', p.length = p'.length → encodeCommand o p = .frame f → encodeCommand o p' = .frame f' →
    f.take 8 = f'.take 8

/-! ## Wire formats -/

/-- 30_encoding.md R71: which byte sequences are well-formed command frames, and what their tag and payload are. -/
def Obligations.CommandFrameParse : Prop :=
  ∀ f tag payload : Bytes, parseCommandFrame f = .ok (tag, payload) ↔
    8 ≤ f.length ∧ f.length = 8 + le32 (f.getD 4 0) (f.getD 5 0) (f.getD 6 0) (f.getD 7 0) ∧
      tag = f.take 4 ∧ payload = f.drop 8

/-- 30_encoding.md R53, R68: the byte patterns of the five commands. -/
def Obligations.CommandBytePatterns : Prop :=
  (∀ p0 p1 p2 p3, encode (.init ⟨[p0, p1, p2, p3], rfl⟩) = some [0x49, 0x4E, 0x49, 0x54, 4, 0, 0, 0, p0, p1, p2, p3]) ∧
  (∀ p0 p1 p2 p3, encode (.rspi ⟨[p0, p1, p2, p3], rfl⟩) = some [0x52, 0x53, 0x50, 0x49, 4, 0, 0, 0, p0, p1, p2, p3]) ∧
  (∀ p0 p1 p2 p3, encode (.rrai ⟨[p0, p1, p2, p3], rfl⟩) = some [0x52, 0x52, 0x41, 0x49, 4, 0, 0, 0, p0, p1, p2, p3]) ∧
  (∀ g0 g1 g2 g3 g4 g5 g6 g7, encode (.gnfd ⟨[g0, g1, g2, g3, g4, g5, g6, g7], rfl⟩) =
    some [0x47, 0x4E, 0x46, 0x44, 8, 0, 0, 0, g0, g1, g2, g3, g4, g5, g6, g7]) ∧
  encode .gbye = some [0x47, 0x42, 0x59, 0x45, 0, 0, 0, 0] ∧
  Config.initPayload.bytes = [3, 0, 0, 0] ∧ Config.rspiPayload.bytes = [1, 0, 0, 0] ∧ Config.rraiPayload.bytes = [1, 0, 0, 0]

/-- A few words decode to the instructions they stand for (30_encoding.md, 95_test_vectors.md). -/
def Obligations.SampleWordsDecode : Prop :=
  decodeFrame .cmd [0x49, 0x4E, 0x49, 0x54, 0x04, 0, 0, 0, 0x03, 0, 0, 0] = .ok (.init ⟨[3, 0, 0, 0], rfl⟩) ∧
  decodeFrame .ack [0x11, 0x22, 0x33, 0x44, 0x55, 0x66, 0x77, 0x88, 0x00] =
    .ok (.ackOk ⟨[0x11, 0x22, 0x33, 0x44, 0x55, 0x66, 0x77, 0x88], rfl⟩) ∧
  decodeFrame .hdr [0, 0, 0, 0, 0x80, 0, 0, 0] = .ok (.hdrTarget ⟨[0, 0, 0, 0, 0x80, 0, 0, 0], rfl⟩) ∧
  decodeFrame .pld [0x34, 0x12, 0x78, 0x56, 0xBC, 0x9A, 0xF0, 0xDE] = .ok (.pld 0x1234 0x5678 0x9ABC 0xDEF0)

/-- Decoding the encoding of a well-formed frame gives it back, every operand at every value (30_encoding.md sections 2 to 5). -/
def Obligations.DecodeInvertsEncode : Prop :=
  ∀ (i : Instr) (f : Format) (b : Bytes), i.wellFormed = true → i.format = some f → encode i = some b →
    decodeFrame f b = .ok i

/-- What decodes is well-formed, of the format asked for, and is encoded by exactly the bytes it was decoded from: no byte of a
frame is dropped and no two frames of a format share their bytes (30_encoding.md sections 2 to 5). -/
def Obligations.EncodeInvertsDecode : Prop :=
  ∀ (f : Format) (b : Bytes) (i : Instr), decodeFrame f b = .ok i →
    encode i = some b ∧ i.format = some f ∧ i.wellFormed = true

/-! ## ACK -/

/-- 41_decode_ack.md R96: the five cases, the length judged before the status byte; nothing but the result port changes. -/
def Obligations.DecodeAckCases : Prop :=
  ∀ (b : Bytes) (s : State), exec (.decodeAck b) s = .next { s with
    result := some (.ack (
      if b.length = 0 then .timeout
      else if b.length ≤ 8 then .shortRead
      else if b.length = 9 then (if b[8]? = some 0 then .ok else .notAcknowledged)
      else .excessBytes (if b[8]? = some 0 then .ok else .notAcknowledged))) }

/-- 41_decode_ack.md R91 to R94: each outcome when, and only when, its condition holds. -/
def Obligations.AckOutcomeConditions : Prop :=
  ∀ (b : Bytes) (s : State), ∃ o, exec (.decodeAck b) s = .next { s with result := some (.ack o) } ∧
    (o = .timeout ↔ b.length = 0) ∧ (o = .shortRead ↔ 1 ≤ b.length ∧ b.length ≤ 8) ∧
    (o = .ok ↔ b.length = 9 ∧ b[8]? = some 0) ∧ (o = .notAcknowledged ↔ b.length = 9 ∧ b[8]? ≠ some 0)

/-- 30_encoding.md R56, R57: bytes 0 to 7 of an ack and the value of a nonzero status make no difference. The last clause, that
where no ack is awaited the verdict is all there is, is no rule of the spec but the model's convention (log 18). -/
def Obligations.AckDependsOnStatusAlone : Prop :=
  ∀ (a a' : AckBytes) (st st' : Byte) (s : State), st ≠ 0 → st' ≠ 0 →
    exec (.ackOk a) s = exec (.ackOk a') s ∧
    exec (.ackNotAcknowledged a st) s = exec (.ackNotAcknowledged a' st') s ∧
    (∃ t, exec (.ackOk a) s = .next t ∧ t.result = some (.ack .ok)) ∧
    (∃ t, exec (.ackNotAcknowledged a st) s = .next t ∧ t.result = some (.ack .notAcknowledged)) ∧
    (s.phase ≠ .awaitAck → exec (.ackOk a) s = .next { s with result := some (.ack .ok) } ∧
      exec (.ackNotAcknowledged a st) s = .next { s with result := some (.ack .notAcknowledged) })

/-! ## DET -/

/-- 30_encoding.md R59, R60: only the flag of a header counts, and only whether it is at most 1. -/
def Obligations.HeaderFlagDecides : Prop :=
  ∀ (h h' : Header) (src : Source) (s : State), ((h.bytes.getD 4 0).toNat ≤ 1 ↔ (h'.bytes.getD 4 0).toNat ≤ 1) →
    exec (.decodeDetection h src) s = exec (.decodeDetection h' src) s ∧
    exec (.hdrNoTarget h) s = exec (.hdrNoTarget h') s ∧ exec (.hdrTarget h) s = exec (.hdrTarget h') s

/-- 42_decode_detection.md R101: with a flag of 0 or 1 the result is `None`; no take is made and no reader moves, whatever the
readers hold; the other seven bytes are not read. -/
def Obligations.NoTargetConsumesNothing : Prop :=
  ∀ (h : Header) (src : Source) (s : State), (h.bytes.getD 4 0).toNat ≤ 1 →
    (∃ t, exec (.decodeDetection h src) s = .next t ∧ t.result = some (.det .none) ∧ t.rx = s.rx ∧ t.reader = s.reader ∧
      t.tx = s.tx ∧ t.replies = s.replies ∧ t.draws = s.draws ∧
      (t.trace = s.trace ∨ t.trace = s.trace ++ [.handedNoTarget])) ∧
    ∀ h' : Header, h'.bytes.getD 4 0 = h.bytes.getD 4 0 → exec (.decodeDetection h' src) s = exec (.decodeDetection h src) s

/-- 44_host_session.md R156: where the host awaits the header, no target is handed to the caller and the cycle is over; where it
does not, `None` is only the unit's result (the model's convention, log 18). The next states are given whole. -/
def Obligations.NoTargetIsHandedOver : Prop :=
  ∀ (h : Header) (s : State), (h.bytes.getD 4 0).toNat ≤ 1 →
    exec (.decodeDetection h .reader) s = .next { s with result := some (.det .none) } ∧
    (s.phase ≠ .awaitHeader →
      exec (.hdrNoTarget h) s = .next { s with result := some (.det .none) } ∧
      exec (.decodeDetection h .stream) s = .next { s with result := some (.det .none) }) ∧
    (s.phase = .awaitHeader → s.session = .streaming →
      exec (.hdrNoTarget h) s = .next { s with
        result := some (.det .none), phase := .ready, trace := s.trace ++ [.handedNoTarget] } ∧
      exec (.decodeDetection h .stream) s = .next { s with
        result := some (.det .none), phase := .ready, trace := s.trace ++ [.handedNoTarget] })

/-- With a flag of 2 to 255 the header is the first half of the detection (42_decode_detection.md R102 has the payload take follow
in the same operation): that it ends a step and leaves the host at the payload is the model's split in two steps (log 9), and
that elsewhere only the result port is cleared is the model's convention (log 18), as is the clear port (log 23). -/
def Obligations.TargetHeaderAwaitsPayload : Prop :=
  ∀ (h : Header) (s : State), 2 ≤ (h.bytes.getD 4 0).toNat →
    (s.phase = .awaitHeader → exec (.hdrTarget h) s = .next { s with result := none, phase := .awaitPayload }) ∧
    (s.phase ≠ .awaitHeader → exec (.hdrTarget h) s = .next { s with result := none })

/-- 42_decode_detection.md R102, on a finite reader: one take of at most 8 bytes, which are consumed; fewer than 8 are
`TruncatedPayload` and no Target, 8 are a Target. -/
def Obligations.DetectionFromReader : Prop :=
  ∀ (h : Header) (s : State), 2 ≤ (h.bytes.getD 4 0).toNat → ∃ r, exec (.decodeDetection h .reader) s = .next { s with
      reader := { s.reader with pos := s.reader.pos + min 8 (s.reader.bytes.length - s.reader.pos) },
      result := some (.det r) } ∧
    (s.reader.bytes.length - s.reader.pos < 8 → r = .truncatedPayload) ∧
    (8 ≤ s.reader.bytes.length - s.reader.pos →
      r = detectionOf Config.numerics ((s.reader.bytes.drop s.reader.pos).take 8) ∧ ∃ t, r = .some t)

/-- 42_decode_detection.md R102, on the receive stream: the same, through the transport. Without a handle the machine faults
(log 17). An `IoError` (60_exceptions.md R177) is in the four running states the fatal transition of 44_host_session.md R161;
that baud, port and framing keep their values there is read from 10_state.md R15 and R22 (log 22). That the result port is clear
is the model's choice (logs 23, 30), and so is that in the other two states nothing follows but that the place of the exchange
is left (log 30). -/
def Obligations.DetectionFromStream : Prop :=
  ∀ (h : Header) (s : State), 2 ≤ (h.bytes.getD 4 0).toNat →
    (s.handle = none → exec (.decodeDetection h .stream) s = .fault .transportNotOpen) ∧
    (s.handle ≠ none → s.nextReply.ioError = false → s.phase ≠ .awaitHeader →
      exec (.decodeDetection h .stream) s = .next { (s.read 8).2 with
        result := some (.det (detectionOf Config.numerics ((s.rx ++ s.nextReply.arrived).take 8))) }) ∧
    (s.handle ≠ none → s.nextReply.ioError = true → Fragile s →
      ∃ t, exec (.decodeDetection h .stream) s = .next t ∧ t.result = none ∧
        EndsInTransportError s t (!s.useReply.nextReply.ioError)) ∧
    (s.handle ≠ none → s.nextReply.ioError = true → ¬Fragile s →
      exec (.decodeDetection h .stream) s = .next { (s.read 8).2 with result := none, phase := .ready })

/-- 30_encoding.md R62 to R66: the four direct fields of eight payload bytes: order, byte order, extension and scale. -/
def Obligations.PayloadFields : Prop :=
  ∀ (N : Numerics) (p0 p1 p2 p3 p4 p5 p6 p7 : Byte), ∃ t, detectionOf N [p0, p1, p2, p3, p4, p5, p6, p7] = .some t ∧
    t.distanceCm = F64.ofInt (p0.toNat + 256 * p1.toNat) ∧
    t.speedKmh = F64.div (F64.ofInt (if p2.toNat + 256 * p3.toNat ≤ 32767 then ((p2.toNat + 256 * p3.toNat : Nat) : Int)
      else ((p2.toNat + 256 * p3.toNat : Nat) : Int) - 65536)) (F64.ofInt 100) ∧
    t.angleDeg = F64.div (F64.ofInt (if p4.toNat + 256 * p5.toNat ≤ 32767 then ((p4.toNat + 256 * p5.toNat : Nat) : Int)
      else ((p4.toNat + 256 * p5.toNat : Nat) : Int) - 65536)) (F64.ofInt 100) ∧
    t.magnitude = F64.ofInt (p6.toNat + 256 * p7.toNat) ∧
    t.xCm = F64.mul t.distanceCm.neg (N.sin (N.radians t.angleDeg)) ∧
    t.yCm = F64.mul t.distanceCm (N.cos (N.radians t.angleDeg))

/-- 44_host_session.md R156: a decoded Target is handed to the caller and appended to the records with its timestamp (for every
value of the timestamp); where no payload is awaited the Target is only the unit's result (the model's convention, log 18).
That the payload is a step of its own is the model's split (log 9). -/
def Obligations.PayloadIsRecorded : Prop :=
  ∀ (d sp a m : Half) (s : State),
    (s.phase = .awaitPayload → s.session = .streaming →
      exec (.pld d sp a m) s = .next { s with
        result := some (.det (.some (targetOf Config.numerics d sp a m)))
        phase := .ready
        records := s.records ++ [⟨targetOf Config.numerics d sp a m, Config.timestamp s.draws⟩]
        draws := s.draws + 1
        trace := s.trace ++ [.handedTarget ⟨targetOf Config.numerics d sp a m, Config.timestamp s.draws⟩] }) ∧
    (s.phase ≠ .awaitPayload →
      exec (.pld d sp a m) s = .next { s with result := some (.det (.some (targetOf Config.numerics d sp a m))) })

/-- 42_decode_detection.md R113 against its two halves: a header with a target, and then the step that takes the payload, do
what the whole operation on the receive stream does in one step, whatever arrives and whatever fails. The split in two steps is
the model's (log 9), and so are the failing read's effects (logs 23, 30, 33). -/
def Obligations.HeaderThenPayloadIsWholeDetection : Prop :=
  ∀ (h : Header) (s : State), 2 ≤ (h.bytes.getD 4 0).toNat → s.calls = [] → s.session = .streaming →
    s.phase = .awaitHeader → s.handle ≠ none →
    ∃ s₁ t, exec (.hdrTarget h) s = .next s₁ ∧ step s₁ = .next t ∧ exec (.decodeDetection h .stream) s = .next t

/-! ## Numerics -/

/-- 00_scope.md section 6.3: the conversion of an integer of at most 53 bits is exact. -/
def Obligations.IntegersConvertExactly : Prop :=
  ∀ n : Int, |n| ≤ 2 ^ 53 → (F64.ofInt n).isFinite = true ∧ (F64.ofInt n).toRat = n

/-- 00_scope.md section 6.3: a finite product is the correctly rounded one, and so is a finite quotient; its sign is the
exclusive-or of the operands' signs. -/
def Obligations.ProductAndQuotientCorrectlyRounded : Prop :=
  (∀ a b : F64, a.isFinite → b.isFinite → (F64.mul a b).isFinite →
    Nearest (a.toRat * b.toRat) (F64.mul a b) ∧ (F64.mul a b).isNeg = xor a.isNeg b.isNeg) ∧
  ∀ a b : F64, a.isFinite → b.isFinite → b.toRat ≠ 0 → (F64.div a b).isFinite →
    Nearest (a.toRat / b.toRat) (F64.div a b) ∧ (F64.div a b).isNeg = xor a.isNeg b.isNeg

/-- 42_decode_detection.md R104 to R107: the unsigned fields are exact, the scaled ones the binary64 nearest to the signed raw
value over 100, and raw zero is `+0.0`. -/
def Obligations.FieldValues : Prop :=
  (∀ v : Half, (unsignedField v).isFinite = true ∧ (unsignedField v).toRat = v.toNat) ∧
  (∀ v : Half, Nearest ((v.toInt : ℚ) / 100) (speedField v) ∧ Nearest ((v.toInt : ℚ) / 100) (angleField v)) ∧
  speedField 0 = F64.zero ∧ angleField 0 = F64.zero

/-- 42_decode_detection.md, laws of DET, item 5: the direct fields lose nothing. -/
def Obligations.DirectFieldsInjective : Prop :=
  ∀ (N : Numerics) (d sp a m d' sp' a' m' : Half),
    (targetOf N d sp a m).distanceCm = (targetOf N d' sp' a' m').distanceCm →
    (targetOf N d sp a m).speedKmh = (targetOf N d' sp' a' m').speedKmh →
    (targetOf N d sp a m).angleDeg = (targetOf N d' sp' a' m').angleDeg →
    (targetOf N d sp a m).magnitude = (targetOf N d' sp' a' m').magnitude →
    d = d' ∧ sp = sp' ∧ a = a' ∧ m = m'

/-- 10_state.md section 1, the Target record: no field of a Target the machine makes is NaN or infinite, and the position lies
within 65535 cm on either axis. -/
def Obligations.TargetFieldsFinite : Prop :=
  ∀ d sp a m : Half, let t := targetOf Config.numerics d sp a m
    t.distanceCm.isFinite = true ∧ t.speedKmh.isFinite = true ∧ t.angleDeg.isFinite = true ∧
    t.magnitude.isFinite = true ∧ t.xCm.isFinite = true ∧ t.yCm.isFinite = true ∧
    |t.xCm.toRat| ≤ 65535 ∧ |t.yCm.toRat| ≤ 65535

/-- 42_decode_detection.md, step 3 (the projection): at angle `+0.0` the position is `(-0.0, distance)` exactly; the opposite
angle gives the opposite `x` and the same `y`. The spec asks the symmetry of operands up to 5.72 alone (R110 item 4); that the
machine's record has it for every angle is the model's choice (log 12). -/
def Obligations.ProjectionZeroAndSymmetry : Prop :=
  (∀ d : Half, projectX Config.numerics (unsignedField d) F64.zero = F64.signBit ∧
    projectY Config.numerics (unsignedField d) F64.zero = unsignedField d) ∧
  ∀ (d : Half) (angle : F64),
    projectX Config.numerics (unsignedField d) angle.neg = (projectX Config.numerics (unsignedField d) angle).neg ∧
    projectY Config.numerics (unsignedField d) angle.neg = projectY Config.numerics (unsignedField d) angle

/-- 42_decode_detection.md, step 3 (accuracy): under a numerics record admissible with the bound `eps` the decoded position is
within `65535 * (eps + 2^-49) + 2^-37` cm of the real-valued projection of the decoded distance and angle. The machine's record
is admissible, with `SINCOS_EPS` at its default and what its series leave out (log 12); there the bound is below 1e-9, and the
worked example of R119 comes out with the figures of the source. -/
def Obligations.ProjectionAccuracy : Prop :=
  (∀ (N : Numerics) (eps : ℚ), N.Admissible eps → ∀ d a : Half,
    |((projectX N (unsignedField d) (angleField a)).toRat : ℝ) -
      -(d.toNat : ℝ) * Real.sin (((angleField a).toRat : ℝ) * Real.pi / 180)| ≤ 65535 * (eps + 1 / 2 ^ 49) + 1 / 2 ^ 37 ∧
    |((projectY N (unsignedField d) (angleField a)).toRat : ℝ) -
      (d.toNat : ℝ) * Real.cos (((angleField a).toRat : ℝ) * Real.pi / 180)| ≤ 65535 * (eps + 1 / 2 ^ 49) + 1 / 2 ^ 37) ∧
  Config.numerics.Admissible (Config.sincosEps + 2 * Numerics.seriesEps) ∧
  65535 * (Config.sincosEps + 2 * Numerics.seriesEps + 1 / 2 ^ 49) + 1 / 2 ^ 37 < (1 / 10 ^ 9 : ℚ) ∧
  ∃ t, detectionOf Config.numerics [0x64, 0, 0xCE, 0xFF, 0x64, 0, 0x0A, 0] = .some t ∧
    t.distanceCm = F64.ofInt 100 ∧ t.speedKmh.toRat = -1 / 2 ∧ t.angleDeg = F64.one ∧ t.magnitude = F64.ofInt 10 ∧
    Config.numerics.radians t.angleDeg = 0x3F91DF46A2529D39 ∧
    |t.xCm.toRat + 1745 / 1000| < 1 / 100 ∧ |t.yCm.toRat - 99985 / 1000| < 1 / 100

/-! ## Streams -/

/-- 20_memory.md R36: a take that does not fail returns up to `n` bytes from the front, all of them where there are as many, and
leaves the rest. 60_exceptions.md R187: a write appends all the bytes to `tx` in order, or fails and appends none. -/
def Obligations.TakeAndPut : Prop :=
  (∀ (s : State) (n : Nat), s.nextReply.ioError = false → ∃ r, (s.read n).1 = some r ∧
    r ++ (s.read n).2.rx = s.rx ++ s.nextReply.arrived ∧
    r.length = min n (s.rx.length + s.nextReply.arrived.length)) ∧
  ∀ (s : State) (b : Bytes),
    ((s.write b).1 = true ∧ (s.write b).2.tx = s.tx ++ b) ∨ ((s.write b).1 = false ∧ (s.write b).2.tx = s.tx)

/-! ## Commands -/

/-- 44_host_session.md section 2 and 60_exceptions.md section 8: `INIT` opens the transport at the low rate with the fixed
framing, enters `Initializing`, and puts its frame. The next state is given whole; that the ack is awaited in a step of its own
is the model's cut (log 10), that `Start` is used up is log 4, and what the port shows is log 23. -/
def Obligations.InitOpensAndPuts : Prop :=
  ∀ (p : Value) (port : Nat) (s : State), s.session = .disconnected → s.phase = .ready → s.sessionOutcome = none →
    s.startEvent = some port → s.nextReply.ioError = false → (s.openPort port).2.nextReply.ioError = false →
    exec (.init p) s = .next { (s.openPort port).2.useReply with
      result := some (.enc (.frame ([0x49, 0x4E, 0x49, 0x54, 4, 0, 0, 0] ++ p.bytes)))
      startEvent := none
      session := .initializing
      phase := .awaitAck
      tx := s.tx ++ ([0x49, 0x4E, 0x49, 0x54, 4, 0, 0, 0] ++ p.bytes)
      trace := s.trace ++ [.opened port Config.baudInit ⟨.even, 1, 8, 2000⟩ true,
        .wrote ([0x49, 0x4E, 0x49, 0x54, 4, 0, 0, 0] ++ p.bytes) true] } ∧
    (s.openPort port).2.useReply.baud = some Config.baudInit ∧
    (s.openPort port).2.useReply.handle = some (Config.freshHandle s.useReply.draws) ∧
    (s.openPort port).2.useReply.port = some port ∧
    (s.openPort port).2.useReply.framing = ⟨.even, 1, 8, 2000⟩ ∧
    (s.openPort port).2.useReply.records = s.records

/-- 43_command_set.md, `RSPI` and `RRAI`: the state named by the command is entered as its frame is put. The next state is
given whole; that the ack is awaited in a step of its own is the model's cut (log 10). -/
def Obligations.SetupCommandsPut : Prop :=
  ∀ (p : Value) (s : State), s.phase = .ready → s.handle ≠ none → s.sessionOutcome = none → s.nextReply.ioError = false →
    (s.session = .initializing → exec (.rspi p) s = .next { s.useReply with
      result := some (.enc (.frame ([0x52, 0x53, 0x50, 0x49, 4, 0, 0, 0] ++ p.bytes)))
      session := .configuringSpeed
      phase := .awaitAck
      tx := s.tx ++ ([0x52, 0x53, 0x50, 0x49, 4, 0, 0, 0] ++ p.bytes)
      trace := s.trace ++ [.wrote ([0x52, 0x53, 0x50, 0x49, 4, 0, 0, 0] ++ p.bytes) true] }) ∧
    (s.session = .configuringSpeed → exec (.rrai p) s = .next { s.useReply with
      result := some (.enc (.frame ([0x52, 0x52, 0x41, 0x49, 4, 0, 0, 0] ++ p.bytes)))
      session := .configuringRange
      phase := .awaitAck
      tx := s.tx ++ ([0x52, 0x52, 0x41, 0x49, 4, 0, 0, 0] ++ p.bytes)
      trace := s.trace ++ [.wrote ([0x52, 0x52, 0x41, 0x49, 4, 0, 0, 0] ++ p.bytes) true] })

/-- 43_command_set.md, `GNFD`: a cycle begins with its frame, the state staying `Streaming`. The next state is given whole; that
the ack is awaited in a step of its own is the model's cut (log 10). -/
def Obligations.GnfdPuts : Prop :=
  ∀ (g : Descriptor) (s : State), s.session = .streaming → s.phase = .ready → s.handle ≠ none → s.sessionOutcome = none →
    s.cancelRequested = false → s.nextReply.ioError = false →
    exec (.gnfd g) s = .next { s.useReply with
      result := some (.enc (.frame ([0x47, 0x4E, 0x46, 0x44, 8, 0, 0, 0] ++ g.bytes)))
      phase := .awaitAck
      tx := s.tx ++ ([0x47, 0x4E, 0x46, 0x44, 8, 0, 0, 0] ++ g.bytes)
      trace := s.trace ++ [.wrote ([0x47, 0x4E, 0x46, 0x44, 8, 0, 0, 0] ++ g.bytes) true] }

/-- 44_host_session.md section 5: on a cancellation `GBYE` enters `ShuttingDown` and puts its frame, and up to nine bytes of
response are taken and dropped. The next state is given whole; that the close is a step of its own is the model's cut (log 10),
and what the port shows is log 23. -/
def Obligations.GbyePutsAndDropsResponse : Prop :=
  ∀ s : State, s.session = .streaming → s.phase = .ready → s.handle ≠ none → s.sessionOutcome = none →
    s.cancelRequested = true → s.nextReply.ioError = false → s.useReply.nextReply.ioError = false →
    exec .gbye s = .next { s.useReply.useReply with
      result := some (.enc (.frame [0x47, 0x42, 0x59, 0x45, 0, 0, 0, 0]))
      session := .shuttingDown
      tx := s.tx ++ [0x47, 0x42, 0x59, 0x45, 0, 0, 0, 0]
      rx := s.useReply.useReply.rx.drop 9
      trace := s.trace ++ [.wrote [0x47, 0x42, 0x59, 0x45, 0, 0, 0, 0] true,
        .took 9 (some (s.useReply.useReply.rx.take 9))] }

/-- 43_command_set.md R127: the host sends each command only in its state and order; elsewhere the model refuses it by name
(logs 15, 16). -/
def Obligations.CommandsRefusedOutOfSequence : Prop :=
  ∀ (p : Value) (g : Descriptor) (s : State),
    (exec (.init p) s = .refused .sessionFinished ↔ s.sessionOutcome ≠ none) ∧
    (exec (.init p) s = .refused .commandOutOfSequence ↔ s.sessionOutcome = none ∧
      ¬(s.session = .disconnected ∧ s.phase = .ready ∧ s.startEvent ≠ none)) ∧
    (exec (.rspi p) s = .refused .commandOutOfSequence ↔
      ¬(s.session = .initializing ∧ s.phase = .ready ∧ s.handle ≠ none ∧ s.sessionOutcome = none)) ∧
    (exec (.rrai p) s = .refused .commandOutOfSequence ↔
      ¬(s.session = .configuringSpeed ∧ s.phase = .ready ∧ s.handle ≠ none ∧ s.sessionOutcome = none)) ∧
    (exec (.gnfd g) s = .refused .commandOutOfSequence ↔ ¬(s.session = .streaming ∧ s.phase = .ready ∧
      s.handle ≠ none ∧ s.sessionOutcome = none ∧ s.cancelRequested = false)) ∧
    (exec .gbye s = .refused .commandOutOfSequence ↔ ¬(s.session = .streaming ∧ s.phase = .ready ∧
      s.handle ≠ none ∧ s.sessionOutcome = none ∧ s.cancelRequested = true))

/-! ## The host's reactions -/

/-- 43_command_set.md, the exchange: the step that awaits an ack takes nine bytes and has ACK judge whatever came.
That this is a step of its own is the model's cut (log 10). -/
def Obligations.StepJudgesTheTakenAck : Prop :=
  ∀ s : State, s.calls = [] → s.phase = .awaitAck → s.handle ≠ none → s.nextReply.ioError = false →
    step s = .next ((s.read 9).2.judgeAck ((s.rx ++ s.nextReply.arrived).take 9))

/-- 44_host_session.md R144: after an `Ok` ack to `INIT` the host sleeps 75 ms and then raises the baud, with nothing sent or
decoded between; only then is `RSPI` the next command. That this is one step is the model's cut (log 10), and what `rx` holds
after the raise is the oracle's (log 21). -/
def Obligations.InitAckSettlesThenRaisesBaud : Prop :=
  ∀ (a : AckBytes) (s : State), s.session = .initializing → s.phase = .awaitAck → s.nextReply.ioError = false →
    exec (.ackOk a) s = .next { s.useReply with
      result := some (.ack .ok)
      phase := .ready
      baud := some Config.baudHigh
      rx := s.nextReply.rewritten.getD (s.rx ++ s.nextReply.arrived)
      trace := s.trace ++ [.settled 75, .baudSet Config.baudHigh true] } ∧
    ∀ t, exec (.ackOk a) s = .next t → t.calls = [] → step t = exec (.rspi t.payloads.rspi) t

/-- 44_host_session.md R143: any outcome of the `INIT` exchange other than `Ok` ends the session with `InitializationFailed`: no
`GBYE`, no baud raise, the transport closed (whether or not the close fails), the records handed over. That the port and the
framing keep their values at the close, and the baud its value without a raise, is read from 10_state.md R15 and R22 (log 22). -/
def Obligations.InitFailureEndsSession : Prop :=
  ∀ s : State, s.calls = [] → s.session = .initializing → s.phase = .awaitAck → s.handle ≠ none →
    s.nextReply.ioError = false → decodeAck ((s.rx ++ s.nextReply.arrived).take 9) ≠ .ok →
    ∃ t, step s = .next t ∧ t.session = .disconnected ∧ t.phase = .ready ∧
      t.sessionOutcome = some .initializationFailed ∧ t.handle = none ∧ t.baud = s.baud ∧ t.port = s.port ∧ t.framing = s.framing ∧
      t.tx = s.tx ∧ t.records = s.records ∧ t.payloads = s.payloads ∧ t.reader = s.reader ∧
      t.trace = s.trace ++ [.took 9 (some ((s.rx ++ s.nextReply.arrived).take 9)),
        .closed (!s.useReply.nextReply.ioError), .handedOver s.records .initializationFailed]

/-- 44_host_session.md section 3 (R147): a failed ack to `RSPI` is one warning; failed or not, the session goes on. The next state
is given whole: that the step ends there, still in `ConfiguringSpeed` with no exchange in flight, before the put of `RRAI` that
R165 has among the effects of the same transition, is the model's cut (log 10). -/
def Obligations.RspiAckProceeds : Prop :=
  ∀ s : State, s.calls = [] → s.session = .configuringSpeed → s.phase = .awaitAck → s.handle ≠ none →
    s.nextReply.ioError = false →
    let b := (s.rx ++ s.nextReply.arrived).take 9
    step s = .next { (s.read 9).2 with
      result := some (.ack (decodeAck b))
      phase := .ready
      trace := (s.read 9).2.trace ++ (if decodeAck b = .ok then [] else [.warned .rspi (.ack (decodeAck b))]) }

/-- 44_host_session.md R150: once the `RRAI` ack is in, `Streaming` is entered and nothing is sent or taken; a failed ack is one
warning (R149). -/
def Obligations.RraiAckEntersStreaming : Prop :=
  ∀ s : State, s.calls = [] → s.session = .configuringRange → s.phase = .awaitAck → s.handle ≠ none →
    s.nextReply.ioError = false →
    let b := (s.rx ++ s.nextReply.arrived).take 9
    step s = .next { (s.read 9).2 with
      result := some (.ack (decodeAck b))
      session := .streaming
      phase := .ready
      trace := (s.read 9).2.trace ++ (if decodeAck b = .ok then [] else [.warned .rrai (.ack (decodeAck b))]) }

/-- 44_host_session.md R152: a failed `GNFD` ack abandons the cycle: one warning, no header take, the state stays `Streaming`. -/
def Obligations.GnfdAckFailureAbandonsCycle : Prop :=
  (∀ (a : AckBytes) (st : Byte) (s : State), st ≠ 0 → s.session = .streaming → s.phase = .awaitAck →
    exec (.ackNotAcknowledged a st) s = .next { s with
      result := some (.ack .notAcknowledged), phase := .ready,
      trace := s.trace ++ [.warned .gnfd (.ack .notAcknowledged)] }) ∧
  ∀ s : State, s.calls = [] → s.session = .streaming → s.phase = .awaitAck → s.handle ≠ none →
    s.nextReply.ioError = false → decodeAck ((s.rx ++ s.nextReply.arrived).take 9) ≠ .ok →
    step s = .next { (s.read 9).2 with
      result := some (.ack (decodeAck ((s.rx ++ s.nextReply.arrived).take 9)))
      phase := .ready
      trace := (s.read 9).2.trace ++ [.warned .gnfd (.ack (decodeAck ((s.rx ++ s.nextReply.arrived).take 9)))] }

/-- 44_host_session.md section 4 (the telemetry read): an `Ok` ack to `GNFD` is followed by the header take. That the step
ends before the take, which R165 has as the effect of the same transition, is the model's cut (log 10). -/
def Obligations.GnfdAckAwaitsHeader : Prop :=
  ∀ (a : AckBytes) (s : State), s.session = .streaming → s.phase = .awaitAck →
    exec (.ackOk a) s = .next { s with result := some (.ack .ok), phase := .awaitHeader }

/-- 44_host_session.md R154: a header take of fewer than 8 bytes is one warning, named `Timeout` for none and `ShortRead` for 1
to 7; DET is not called, nothing is recorded, the state stays as it is. That the result port is clear is the model's choice
(log 23). -/
def Obligations.ShortHeaderWarns : Prop :=
  ∀ s : State, s.calls = [] → s.session = .streaming → s.phase = .awaitHeader → s.handle ≠ none →
    s.nextReply.ioError = false → s.rx.length + s.nextReply.arrived.length < 8 →
    step s = .next { (s.read 8).2 with
      result := none
      phase := .ready
      trace := (s.read 8).2.trace ++
        [.warned .header (if s.rx.length + s.nextReply.arrived.length = 0 then .timeout else .shortRead)] }

/-- 44_host_session.md section 4 (R155): a payload take of fewer than 8 bytes is one warning; the cycle yields nothing, nothing is
recorded, the state stays as it is. That the payload take is a step of its own is the model's split (log 9). -/
def Obligations.TruncatedPayloadWarns : Prop :=
  ∀ s : State, s.calls = [] → s.session = .streaming → s.phase = .awaitPayload → s.handle ≠ none →
    s.nextReply.ioError = false → s.rx.length + s.nextReply.arrived.length < 8 →
    step s = .next { (s.read 8).2 with
      result := some (.det .truncatedPayload)
      phase := .ready
      trace := (s.read 8).2.trace ++ [.warned .payload .truncatedPayload] }

/-- 44_host_session.md R161: an `IoError` is fatal at a take, at the put of a command, at `set_baud` and at `open`; `GBYE` is
attempted once if and only if the transport is usable; then the transport is closed and the records are handed over. A failed
`open` sends nothing and closes nothing; the put of `INIT` that fails after an `open` that succeeded is fatal like any other.
That baud, port and framing keep their values at the close is read from 10_state.md R15 and R22 (log 22), that a failing
`set_baud` leaves the baud is the model's choice (log 21), and so is that a failed `open` leaves baud and port as they were (log 35)
and the result port clear (log 23). -/
def Obligations.TransportErrorEndsSession : Prop :=
  (∀ s : State, s.calls = [] → Fragile s → s.phase ≠ .ready → s.handle ≠ none → s.nextReply.ioError = true →
    ∃ t, step s = .next t ∧ EndsInTransportError s t (!s.useReply.nextReply.ioError)) ∧
  (∀ (p : Value) (g : Descriptor) (s : State), s.phase = .ready → s.handle ≠ none → s.sessionOutcome = none →
    s.nextReply.ioError = true →
    (s.session = .initializing →
      ∃ t, exec (.rspi p) s = .next t ∧ EndsInTransportError s t (!s.useReply.nextReply.ioError)) ∧
    (s.session = .configuringSpeed →
      ∃ t, exec (.rrai p) s = .next t ∧ EndsInTransportError s t (!s.useReply.nextReply.ioError)) ∧
    (s.session = .streaming → s.cancelRequested = false →
      ∃ t, exec (.gnfd g) s = .next t ∧ EndsInTransportError s t (!s.useReply.nextReply.ioError))) ∧
  (∀ (a : AckBytes) (s : State), s.session = .initializing → s.phase = .awaitAck → s.nextReply.ioError = true →
    ∃ t, exec (.ackOk a) s = .next t ∧ EndsInTransportError s t (!s.useReply.nextReply.ioError)) ∧
  (∀ (p : Value) (port : Nat) (s : State), s.session = .disconnected → s.phase = .ready → s.sessionOutcome = none →
    s.startEvent = some port → s.nextReply.ioError = true →
    ∃ t, exec (.init p) s = .next t ∧ t.session = .disconnected ∧ t.sessionOutcome = some .transportError ∧
      t.handle = s.handle ∧ t.tx = s.tx ∧ t.records = s.records ∧ t.baud = s.baud ∧ t.port = s.port ∧ t.result = none ∧
      t.trace = s.trace ++ [.opened port Config.baudInit ⟨.even, 1, 8, 2000⟩ false,
        .handedOver s.records .transportError]) ∧
  ∀ (p : Value) (port : Nat) (s : State), s.session = .disconnected → s.phase = .ready → s.sessionOutcome = none →
    s.startEvent = some port → s.nextReply.ioError = false → (s.openPort port).2.nextReply.ioError = true →
    ∃ t, exec (.init p) s = .next t ∧
      EndsInTransportError (s.openPort port).2 t (!(s.openPort port).2.useReply.nextReply.ioError)

/-- 44_host_session.md R159: from a cancellation seen between cycles two steps lead to `Disconnected` with outcome `Normal` and
the records handed over, whichever of the put, the take and the close fail; `GBYE` is attempted once. That the baud keeps its
value at the close is read from 10_state.md R15 (log 22); that the close is a step of its own is the model's cut (log 10). -/
def Obligations.ShutdownAlwaysEndsNormally : Prop :=
  ∀ s : State, s.calls = [] → s.session = .streaming → s.phase = .ready → s.handle ≠ none → s.sessionOutcome = none →
    s.cancelRequested = true →
    ∃ u t, step s = .next u ∧ u.session = .shuttingDown ∧ step u = .next t ∧
      t.session = .disconnected ∧ t.sessionOutcome = some .normal ∧ t.handle = none ∧ t.records = s.records ∧
      t.baud = s.baud ∧ t.tx = (if s.nextReply.ioError then s.tx else s.tx ++ gbyeFrame) ∧
      t.trace.getLast? = some (.handedOver s.records .normal)

/-- 44_host_session.md section 6 (R162): a session that has ended takes no further event (a refusal in the model, log 15);
operations of the block may still be called (70_reset_and_hazards.md R201; served first, log 19). -/
def Obligations.FinishedSessionTakesNoEvent : Prop :=
  ∀ s : State, s.session = .disconnected → s.phase = .ready → s.sessionOutcome ≠ none →
    (s.calls = [] → step s = .refused .sessionFinished) ∧
    ∀ (b : Bytes), ∃ t, step { s with calls := .ack b :: s.calls } = .next t ∧ t.result = some (.ack (decodeAck b)) ∧
      t.calls = s.calls ∧ t.sessionOutcome = s.sessionOutcome

/-! ## A step runs the decoded instruction -/

/-- 20_memory.md section 6: with the host at a place of the exchange, the bytes taken from `rx` that decode as the frame of that
place are what the step executes. 70_reset_and_hazards.md R201 lets an operation of the block be invoked at any time; that one
presented is executed before the session's own next step, in or out of a session, is the model's choice (log 19). -/
def Obligations.StepRunsDecodedInstruction : Prop :=
  (∀ (c : Call) (cs : List Call) (s : State), s.calls = c :: cs → step s = exec c.instr { s with calls := cs }) ∧
  ∀ (s : State) (i : Instr), s.calls = [] → s.handle ≠ none → s.nextReply.ioError = false →
    (s.phase = .awaitAck → decodeFrame .ack ((s.rx ++ s.nextReply.arrived).take 9) = .ok i →
      step s = exec i (s.read 9).2) ∧
    (s.phase = .awaitHeader → decodeFrame .hdr ((s.rx ++ s.nextReply.arrived).take 8) = .ok i →
      step s = exec i (s.read 8).2) ∧
    (s.phase = .awaitPayload → decodeFrame .pld ((s.rx ++ s.nextReply.arrived).take 8) = .ok i →
      step s = exec i (s.read 8).2)

/-- 44_host_session.md section 7: with no exchange in flight the session's state selects the command the step executes. That the
host takes a waiting step before `Start` is the model's choice (log 4), and so is that this step clears the result port (log 23). -/
def Obligations.StepSelectsCommand : Prop :=
  ∀ s : State, s.calls = [] → s.phase = .ready →
    (s.session = .disconnected → s.sessionOutcome = none → s.startEvent ≠ none →
      step s = exec (.init s.payloads.init) s) ∧
    (s.session = .disconnected → s.sessionOutcome = none → s.startEvent = none → step s = .next { s with result := none }) ∧
    (s.session = .initializing → step s = exec (.rspi s.payloads.rspi) s) ∧
    (s.session = .configuringSpeed → step s = exec (.rrai s.payloads.rrai) s) ∧
    (s.session = .streaming → s.cancelRequested = false → step s = exec (.gnfd s.payloads.gnfd) s) ∧
    (s.session = .streaming → s.cancelRequested = true → step s = exec .gbye s)

/-- Every well-formed instruction placed in a state is what the next step fetches and executes (placing is the model's, log 26). -/
def Obligations.PlacedInstructionRunsNext : Prop :=
  ∀ (s : State) (i : Instr), i.wellFormed = true →
    ∃ s', fetch (s.placed i) = .run i s' ∧ step (s.placed i) = exec i s'

/-! ## Reset, invariants and whole-machine rules -/

/-- 10_state.md R27: the state when a session has been created and no transition has been taken. The initial content of `rx` is
free. That no port is held before `open` is the model's choice (log 34). -/
def Obligations.ResetValues : Prop :=
  State.reset.session = .disconnected ∧ State.reset.baud = none ∧ State.reset.handle = none ∧
  State.reset.records = [] ∧ State.reset.sessionOutcome = none ∧ State.reset.cancelRequested = false ∧
  State.reset.framing = ⟨.even, 1, 8, 2000⟩ ∧ State.reset.port = none ∧ State.reset.tx = [] ∧ State.reset.rx = Config.rxAtReset

/-- The invariants hold at reset (10_state.md R27; the place of the exchange, log 10, and the absent port, log 34, are the
model's). -/
def Obligations.ResetIsProper : Prop := SessionInv State.reset ∧ TxInv State.reset

/-- Every step, and every instruction executed by itself, keeps the fields of the session fitting together. What the invariant
says of the place of the exchange is the model's cut (log 10), of the port before `open` log 34, of baud, port and framing after
the close log 22. -/
def Obligations.StepKeepsSessionInv : Prop :=
  (∀ s t : State, SessionInv s → step s = .next t → SessionInv t) ∧
  ∀ (i : Instr) (s t : State), SessionInv s → exec i s = .next t → SessionInv t

/-- Every step keeps `tx` a sequence of whole frames in the session's order with at most one `GBYE`, last, and none after an
`INIT` failure. -/
def Obligations.StepKeepsTxInv : Prop :=
  ∀ s t : State, SessionInv s → TxInv s → step s = .next t → TxInv t

/-- 70_reset_and_hazards.md section 5 and U27 of 93_implementation_defined.md: a session that has not ended is never stuck. Before
`Start` the step is the model's waiting step (log 4). -/
def Obligations.SessionNeverStuck : Prop :=
  ∀ s : State, SessionInv s → s.calls = [] → s.sessionOutcome = none → Advances (step s)

/-- 44_host_session.md section 5, 60_exceptions.md section 3: only the caller's cancellation, seen between cycles, leads to
`ShuttingDown`; nothing the sensor sends does. That nothing is presented to the block in such a step rests on the model's choice
that a presented operation goes first (log 19). -/
def Obligations.OnlyCancellationShutsDown : Prop :=
  ∀ s t : State, step s = .next t → s.session ≠ .shuttingDown → t.session = .shuttingDown →
    s.session = .streaming ∧ s.phase = .ready ∧ s.cancelRequested = true ∧ s.calls = []

/-- 10_state.md sections 2 and 3: what has been sent (R20) and recorded (R17) is never taken back, a cancellation is never cleared
(R19), and records are added while streaming alone. That the effects reported are kept is the model's choice (log 24); so is
that the usability of the transport is one value for a session (log 5), and that the command payloads, parameters by R24, are a
field of State that no step writes (log 6). -/
def Obligations.HistoryOnlyGrows : Prop :=
  ∀ s t : State, step s = .next t →
    s.tx <+: t.tx ∧ s.records <+: t.records ∧ s.trace <+: t.trace ∧
    (s.cancelRequested = true → t.cancelRequested = true) ∧ t.payloads = s.payloads ∧
    t.transportUsable = s.transportUsable ∧ (t.records ≠ s.records → s.session = .streaming)

/-- 70_reset_and_hazards.md section 3 (R206), 44_host_session.md section 2: there is no way back from the high rate within a
session, and no command but `INIT` is put at the low rate. The one exception is the courtesy `GBYE` of a `TransportError`
(44_host_session.md R161; 43_command_set.md R128). That the baud keeps its value at the close is read from 10_state.md R15
(log 22), and that a failing `set_baud` leaves it is the model's choice (log 21). -/
def Obligations.RatesKeepTheirOrder : Prop :=
  ∀ s t : State, SessionInv s → step s = .next t →
    (s.baud = some Config.baudHigh → t.baud = some Config.baudHigh) ∧
    (s.baud = some Config.baudInit → t.tx ≠ s.tx →
      t.sessionOutcome = some .transportError ∧ t.tx = s.tx ++ gbyeFrame)

/-- 44_host_session.md R160: at every entry to the final `Disconnected` the records are handed over, complete and in order; they
are none where `Streaming` was not reached. -/
def Obligations.TerminationHandsOverRecords : Prop :=
  ∀ (s t : State) (o : SessionOutcome), step s = .next t → s.sessionOutcome = none → t.sessionOutcome = some o →
    t.session = .disconnected ∧ t.records = s.records ∧ t.trace.getLast? = some (.handedOver t.records o) ∧
    (SessionInv s → s.session ≠ .streaming → s.session ≠ .shuttingDown → t.records = [])

/-- 10_state.md R10: the block keeps nothing from one operation to the next: what its ports hold makes no difference to any
step, nor to any instruction that is executed. That the ports are a field of State is the model's (log 23). -/
def Obligations.PortsCarryNothing : Prop :=
  ∀ (s : State) (r : Option PortResult), step { s with result := r } = step s ∧
    ∀ i : Instr, exec i { s with result := r } = exec i s

/-- 60_exceptions.md R171: the codes of the outcomes. -/
def Obligations.OutcomeCodes : Prop :=
  (∀ k : OutcomeKind, k.code.toNat ≤ 9) ∧ (∀ k k' : OutcomeKind, k.code = k'.code → k = k') ∧
  OutcomeKind.ok.code = 0 ∧ OutcomeKind.timeout.code = 1 ∧ OutcomeKind.shortRead.code = 2 ∧
  OutcomeKind.notAcknowledged.code = 3 ∧ OutcomeKind.truncatedPayload.code = 4 ∧
  OutcomeKind.initializationFailed.code = 5 ∧ OutcomeKind.transportError.code = 6 ∧
  OutcomeKind.invalidOpcode.code = 7 ∧ OutcomeKind.excessBytesOk.code = 8 ∧
  OutcomeKind.excessBytesNotAcknowledged.code = 9
end

