-- ==== Sys2Proof/Laws/Numerics.lean ====
section
/-! SUPPORT. Laws of binary64 data: signs, magnitudes and values; that an admissible numerics record exists
(42_decode_detection.md R108 to R110), so that a premise `N.Admissible eps` can be met; and what the machine's own free values
of `SIN` and `COS` can be. -/

namespace Sys2Proof

namespace F64

/-! ## Signs and magnitudes -/

theorem isNeg_eq (a : F64) : a.isNeg = decide (2 ^ 63 ≤ a.toNat) := by
  rw [F64.isNeg, BitVec.msb_eq_decide]

theorem toNat_pack {neg : Bool} {mag : Nat} (h : mag < 2 ^ 63) :
    (pack neg mag).toNat = if neg then 2 ^ 63 + mag else mag := by
  unfold pack
  cases neg <;> simp [BitVec.toNat_ofNat] <;> omega

theorem isNeg_pack {neg : Bool} {mag : Nat} (h : mag < 2 ^ 63) : (pack neg mag).isNeg = neg := by
  rw [isNeg_eq, toNat_pack h]
  cases neg
  · simp
    omega
  · simp

theorem expField_pack {neg : Bool} {mag : Nat} (h : mag < 2 ^ 63) : (pack neg mag).expField = mag / 2 ^ 52 := by
  unfold expField
  rw [toNat_pack h]
  cases neg
  · simp; omega
  · simp; omega

theorem frac_pack {neg : Bool} {mag : Nat} (h : mag < 2 ^ 63) : (pack neg mag).frac = mag % 2 ^ 52 := by
  unfold frac
  rw [toNat_pack h]
  cases neg
  · simp
  · simp
    omega

theorem xor_signBit (n : Nat) (h : n < 2 ^ 64) :
    n ^^^ 2 ^ 63 = if 2 ^ 63 ≤ n then n - 2 ^ 63 else n + 2 ^ 63 := by
  have low := Nat.xor_mod_two_pow (a := n) (b := 2 ^ 63) (n := 63)
  have high := Nat.xor_div_two_pow (a := n) (b := 2 ^ 63) (n := 63)
  generalize n ^^^ 2 ^ 63 = m at low high ⊢
  have top : n / 2 ^ 63 = 0 ∨ n / 2 ^ 63 = 1 := by omega
  rw [show 2 ^ 63 % 2 ^ 63 = 0 by norm_num, Nat.xor_zero] at low
  rw [show 2 ^ 63 / 2 ^ 63 = 1 by norm_num] at high
  rcases top with top | top <;> rw [top] at high <;> norm_num at high <;> split <;> omega

theorem toNat_neg (a : F64) : a.neg.toNat = if 2 ^ 63 ≤ a.toNat then a.toNat - 2 ^ 63 else a.toNat + 2 ^ 63 := by
  rw [F64.neg, BitVec.toNat_xor]
  exact xor_signBit _ a.isLt

theorem toNat_abs (a : F64) : a.abs.toNat = a.toNat % 2 ^ 63 := by
  rw [F64.abs, BitVec.toNat_and]
  exact Nat.and_two_pow_sub_one_eq_mod a.toNat 63

@[simp] theorem isNeg_neg (a : F64) : a.neg.isNeg = !a.isNeg := by
  have := a.isLt
  rw [isNeg_eq, isNeg_eq, toNat_neg]
  by_cases h : 2 ^ 63 ≤ a.toNat
  · simp only [h, if_true, decide_true, Bool.not_true, decide_eq_false_iff_not]
    omega
  · simp only [h, if_false, decide_false, Bool.not_false, decide_eq_true_eq]
    omega

@[simp] theorem expField_neg (a : F64) : a.neg.expField = a.expField := by
  have := a.isLt
  unfold expField
  rw [toNat_neg]
  split <;> omega

@[simp] theorem frac_neg (a : F64) : a.neg.frac = a.frac := by
  have := a.isLt
  unfold frac
  rw [toNat_neg]
  split <;> omega

@[simp] theorem neg_neg (a : F64) : a.neg.neg = a := by
  simp [F64.neg]

@[simp] theorem abs_neg (a : F64) : a.neg.abs = a.abs := by
  have := a.isLt
  apply BitVec.eq_of_toNat_eq
  rw [toNat_abs, toNat_abs, toNat_neg]
  split <;> omega

@[simp] theorem isFinite_neg (a : F64) : a.neg.isFinite = a.isFinite := by simp [isFinite]
@[simp] theorem mant_neg (a : F64) : a.neg.mant = a.mant := by simp [mant]
@[simp] theorem expo_neg (a : F64) : a.neg.expo = a.expo := by simp [expo]

@[simp] theorem toRat_neg (a : F64) : a.neg.toRat = -a.toRat := by
  unfold toRat
  cases h : a.isNeg <;> simp [h]

@[simp] theorem toRat_zero : F64.zero.toRat = 0 := by
  have h : F64.zero.mant = 0 := by decide
  simp [toRat, h]

theorem neg_pack {neg : Bool} {mag : Nat} (h : mag < 2 ^ 63) : (pack neg mag).neg = pack (!neg) mag := by
  apply BitVec.eq_of_toNat_eq
  rw [toNat_neg, toNat_pack h, toNat_pack h]
  cases neg
  · simp only [Bool.false_eq_true, if_false, Bool.not_false, if_true]
    rw [if_neg (by omega)]
    omega
  · simp

/-! ## A datum for every multiple of a power of two -/

theorem gridMag_split {k j : Nat} (hk : k < 2 ^ 53) (hj : j ≤ 53) (h0 : k ≠ 0) :
    gridMag k j / 2 ^ 52 = 1023 + k.log2 - j ∧ gridMag k j % 2 ^ 52 = k * 2 ^ (52 - k.log2) - 2 ^ 52 ∧
      2 ^ 52 ≤ k * 2 ^ (52 - k.log2) ∧ k.log2 ≤ 52 := by
  have hl : k.log2 ≤ 52 := by
    have := (Nat.log2_lt h0 (k := 53)).2 hk
    omega
  have lo : 2 ^ 52 ≤ k * 2 ^ (52 - k.log2) := by
    calc 2 ^ 52 = 2 ^ k.log2 * 2 ^ (52 - k.log2) := by rw [← pow_add]; congr 1; omega
      _ ≤ _ := Nat.mul_le_mul_right _ (Nat.log2_self_le h0)
  have hi : k * 2 ^ (52 - k.log2) < 2 ^ 53 := by
    calc k * 2 ^ (52 - k.log2) < 2 ^ (k.log2 + 1) * 2 ^ (52 - k.log2) :=
          Nat.mul_lt_mul_of_pos_right Nat.lt_log2_self (by positivity)
      _ = 2 ^ 53 := by rw [← pow_add]; congr 1; omega
  rw [gridMag, if_neg h0]
  generalize k * 2 ^ (52 - k.log2) = m at *
  refine ⟨?_, ?_, lo, hl⟩ <;> omega

theorem gridMag_lt {k j : Nat} (hk : k < 2 ^ 53) (hj : j ≤ 53) : gridMag k j < 1076 * 2 ^ 52 := by
  by_cases h0 : k = 0
  · simp [gridMag, h0]
  · obtain ⟨h1, h2, h3, h4⟩ := gridMag_split hk hj h0
    omega

theorem isFinite_grid {neg : Bool} {k j : Nat} (hk : k < 2 ^ 53) (hj : j ≤ 53) : (pack neg (gridMag k j)).isFinite := by
  have := gridMag_lt hk hj
  simp only [isFinite, expField_pack (neg := neg) (show gridMag k j < 2 ^ 63 by omega), bne_iff_ne, ne_eq]
  omega

theorem toRat_grid {neg : Bool} {k j : Nat} (hk : k < 2 ^ 53) (hj : j ≤ 53) :
    (pack neg (gridMag k j)).toRat = (if neg then -1 else 1) * ((k : ℚ) / 2 ^ j) := by
  have lt : gridMag k j < 2 ^ 63 := by have := gridMag_lt hk hj; omega
  unfold toRat mant expo
  rw [isNeg_pack lt, expField_pack lt, frac_pack lt, mul_assoc]
  congr 1
  by_cases h0 : k = 0
  · simp [gridMag, h0]
  · obtain ⟨h1, h2, h3, h4⟩ := gridMag_split hk hj h0
    rw [h1, h2, if_neg (by omega), if_neg (by omega), Nat.add_sub_cancel' h3]
    have e : ((1023 + k.log2 - j : Nat) : Int) - 1075 = ((k.log2 : Int) - 52) - j := by omega
    rw [e, zpow_sub₀ (by norm_num : (2 : ℚ) ≠ 0)]
    have p : (2 : ℚ) ^ ((k.log2 : Int) - 52) = ((2 : ℚ) ^ (52 - k.log2))⁻¹ := by
      rw [← zpow_natCast, ← zpow_neg]
      congr 1
      omega
    rw [p]
    push_cast
    have : (2 : ℚ) ^ (52 - k.log2) ≠ 0 := by positivity
    rw [zpow_natCast]
    field_simp

end F64

/-! ## An admissible record exists -/

/-- The multiple of `2 ^ -j` below `|x|`, never beyond 53 bits. -/
noncomputable def gridOf (x : ℝ) (j : Nat) : Nat := min ⌊|x| * 2 ^ j⌋₊ (2 ^ 53 - 1)

/-- `x` cut to a multiple of `2 ^ -j`; a zero takes the sign `z`. -/
noncomputable def cutTo (x : ℝ) (j : Nat) (z : Bool) : F64 := by
  classical exact F64.pack (decide (x < 0) || (decide (x = 0) && z)) (F64.gridMag (gridOf x j) j)

theorem gridOf_lt (x : ℝ) (j : Nat) : gridOf x j < 2 ^ 53 := by
  unfold gridOf
  omega

theorem cutTo_isFinite (x : ℝ) (j : Nat) (z : Bool) (hj : j ≤ 53) : (cutTo x j z).isFinite :=
  F64.isFinite_grid (gridOf_lt x j) hj

theorem cutTo_neg (x : ℝ) (j : Nat) (z : Bool) (hj : j ≤ 53) : cutTo (-x) j (!z) = (cutTo x j z).neg := by
  have lt := F64.gridMag_lt (gridOf_lt x j) hj
  unfold cutTo
  rw [F64.neg_pack (by omega)]
  have g : gridOf (-x) j = gridOf x j := by simp [gridOf]
  rw [g]
  congr 1
  rcases lt_trichotomy x 0 with h | h | h
  · simp [h, h.ne, h.le]
  · subst h; cases z <;> simp
  · simp [h, h.ne', not_lt.2 h.le]

theorem cutTo_zero (j : Nat) : cutTo 0 j false = F64.zero := by
  simp [cutTo, gridOf, F64.gridMag, F64.pack, F64.zero]

theorem cutTo_close (x : ℝ) (j : Nat) (z : Bool) (hj : j ≤ 53) (hx : |x| * 2 ^ j < 2 ^ 53) :
    |((cutTo x j z).toRat : ℝ) - x| ≤ 1 / 2 ^ j ∧ |((cutTo x j z).toRat : ℝ)| ≤ |x| := by
  have nonneg : 0 ≤ |x| * 2 ^ j := by positivity
  have fl : ⌊|x| * 2 ^ j⌋₊ < 2 ^ 53 := by
    rw [Nat.floor_lt nonneg]
    exact_mod_cast hx
  have gk : gridOf x j = ⌊|x| * 2 ^ j⌋₊ := by unfold gridOf; omega
  have lo := Nat.floor_le nonneg
  have hi := Nat.lt_floor_add_one (|x| * 2 ^ j)
  have pos : (0 : ℝ) < 2 ^ j := by positivity
  have val : ((cutTo x j z).toRat : ℝ) =
      (if (decide (x < 0) || (decide (x = 0) && z)) then -1 else 1) * ((⌊|x| * 2 ^ j⌋₊ : ℝ) / 2 ^ j) := by
    unfold cutTo
    rw [F64.toRat_grid (gridOf_lt x j) hj, gk]
    push_cast
    split <;> simp
  rw [val]
  have lo' : (⌊|x| * 2 ^ j⌋₊ : ℝ) / 2 ^ j ≤ |x| := by rw [div_le_iff₀ pos]; exact lo
  have hi' : |x| - 1 / 2 ^ j ≤ (⌊|x| * 2 ^ j⌋₊ : ℝ) / 2 ^ j := by
    rw [le_div_iff₀ pos, sub_mul, one_div, inv_mul_cancel₀ pos.ne']
    linarith
  have pos' : (0 : ℝ) ≤ (⌊|x| * 2 ^ j⌋₊ : ℝ) / 2 ^ j := by positivity
  generalize (⌊|x| * 2 ^ j⌋₊ : ℝ) / 2 ^ j = q at *
  have eps : (0 : ℝ) ≤ 1 / 2 ^ j := by positivity
  rcases lt_trichotomy x 0 with h | h | h
  · simp only [h, decide_true, Bool.true_or, if_true, abs_of_neg h] at *
    constructor <;> rw [abs_le] <;> constructor <;> linarith
  · subst h
    simp only [abs_zero] at *
    have : q = 0 := by linarith
    subst this
    simp
  · have h1 : ¬ x < 0 := not_lt.2 h.le
    simp only [h1, h.ne', decide_false, Bool.false_and, Bool.or_false, Bool.false_eq_true, if_false, abs_of_pos h] at *
    constructor <;> rw [abs_le] <;> constructor <;> linarith

/-- A record that cuts the real functions to a fixed number of places. -/
noncomputable def cutNumerics : Numerics where
  radians a := cutTo ((a.toRat : ℝ) * Real.pi / 180) 50 a.isNeg
  sin r := cutTo (Real.sin (r.toRat : ℝ)) 52 r.isNeg
  cos r := cutTo (Real.cos (r.toRat : ℝ)) 52 false

theorem cutTo_one : cutTo 1 52 false = F64.one := by
  have h : gridOf 1 52 = 2 ^ 52 := by
    have : ⌊|(1 : ℝ)| * 2 ^ 52⌋₊ = 2 ^ 52 := by
      rw [abs_one, one_mul, show (2 : ℝ) ^ 52 = ((2 ^ 52 : Nat) : ℝ) by norm_num, Nat.floor_natCast]
    rw [gridOf, this]
    norm_num
  have h' : (¬ (1 : ℝ) < 0) ∧ (1 : ℝ) ≠ 0 := by norm_num
  simp only [cutTo, h, h'.1, h'.2, decide_false, Bool.false_and, Bool.or_false]
  decide

/-- An admissible record exists. -/
theorem cutNumerics_admissible : cutNumerics.Admissible Config.sincosEps where
  radians_zero := by
    have : F64.zero.isNeg = false := by decide
    simp [cutNumerics, this, cutTo_zero]
  radians_odd a _ := by
    rw [cutNumerics, ← cutTo_neg _ _ _ (by norm_num)]
    simp only [F64.isNeg_neg, F64.toRat_neg]
    congr 1
    push_cast
    ring
  radians_close a _ ha := by
    refine ⟨cutTo_isFinite _ _ _ (by norm_num), ?_⟩
    have ha' : |(a.toRat : ℝ)| ≤ 32768 / 100 + 1 / 2 ^ 44 := by
      have le : Numerics.angleMax ≤ 32768 / 100 + 1 / 2 ^ 44 := by norm_num [Numerics.angleMax, Config.angleDivisor]
      have cast := (Rat.cast_le (K := ℝ)).2 (ha.trans le)
      push_cast at cast
      exact cast
    have bound : |(a.toRat : ℝ) * Real.pi / 180| ≤ 6 := by
      rw [abs_div, abs_mul, abs_of_pos Real.pi_pos, abs_of_pos (by norm_num : (0 : ℝ) < 180), div_le_iff₀ (by norm_num)]
      calc |(a.toRat : ℝ)| * Real.pi ≤ (32768 / 100 + 1 / 2 ^ 44) * 3.15 :=
            mul_le_mul ha' Real.pi_lt_d2.le Real.pi_pos.le (by norm_num)
        _ ≤ 6 * 180 := by norm_num
    refine (cutTo_close _ 50 a.isNeg (by norm_num) ?_).1.trans ?_
    · calc _ ≤ (6 : ℝ) * 2 ^ 50 := mul_le_mul_of_nonneg_right bound (by positivity)
        _ < 2 ^ 53 := by norm_num
    · norm_num [Numerics.radiansEps]
  sin_close r _ _ := by
    refine ⟨cutTo_isFinite _ _ _ (by norm_num), (cutTo_close _ 52 r.isNeg (by norm_num) ?_).1.trans ?_⟩
    · calc _ ≤ (1 : ℝ) * 2 ^ 52 := mul_le_mul_of_nonneg_right (Real.abs_sin_le_one _) (by positivity)
        _ < 2 ^ 53 := by norm_num
    · norm_num [Config.sincosEps]
  cos_close r _ _ := by
    refine ⟨cutTo_isFinite _ _ _ (by norm_num), (cutTo_close _ 52 false (by norm_num) ?_).1.trans ?_⟩
    · calc _ ≤ (1 : ℝ) * 2 ^ 52 := mul_le_mul_of_nonneg_right (Real.abs_cos_le_one _) (by positivity)
        _ < 2 ^ 53 := by norm_num
    · norm_num [Config.sincosEps]
  sin_bound r _ _ := by
    have lt : |Real.sin (r.toRat : ℝ)| * 2 ^ 52 < 2 ^ 53 :=
      (mul_le_mul_of_nonneg_right (Real.abs_sin_le_one _) (by positivity)).trans_lt (by norm_num)
    have := (cutTo_close _ 52 r.isNeg (by norm_num) lt).2.trans (Real.abs_sin_le_one _)
    exact_mod_cast this
  cos_bound r _ _ := by
    have lt : |Real.cos (r.toRat : ℝ)| * 2 ^ 52 < 2 ^ 53 :=
      (mul_le_mul_of_nonneg_right (Real.abs_cos_le_one _) (by positivity)).trans_lt (by norm_num)
    have := (cutTo_close _ 52 false (by norm_num) lt).2.trans (Real.abs_cos_le_one _)
    exact_mod_cast this
  sin_zero := by
    have : F64.zero.isNeg = false := by decide
    simp [cutNumerics, this, cutTo_zero]
  cos_zero := by simp [cutNumerics, cutTo_one]
  sin_odd r _ _ := by
    rw [cutNumerics, ← cutTo_neg _ _ _ (by norm_num)]
    simp
  cos_even r _ _ := by simp [cutNumerics]

/-! ## The machine's record keeps what R110 asks -/

/-- A magnitude of at most one. -/
theorem F64.abs_toRat_le_one {v : F64} (h : v.abs.toNat ≤ F64.one.toNat) : v.isFinite ∧ |v.toRat| ≤ 1 := by
  rw [F64.toNat_abs, show F64.one.toNat = 1023 * 2 ^ 52 by decide] at h
  have he : v.expField = v.toNat % 2 ^ 63 / 2 ^ 52 := by unfold F64.expField; omega
  have hf : v.frac = v.toNat % 2 ^ 63 % 2 ^ 52 := by unfold F64.frac; omega
  have hlt : v.frac < 2 ^ 52 := by unfold F64.frac; omega
  refine ⟨by simp only [F64.isFinite, bne_iff_ne, ne_eq]; omega, ?_⟩
  have sgn : |(if v.isNeg then -1 else 1 : ℚ)| = 1 := by split <;> norm_num
  rw [F64.toRat, abs_mul, abs_mul, sgn, one_mul, abs_of_nonneg (by positivity), abs_of_nonneg (by positivity)]
  by_cases top : v.expField = 1023
  · have : v.frac = 0 := by omega
    norm_num [F64.mant, F64.expo, top, this]
  · have hm : v.mant ≤ 2 ^ 53 := by unfold F64.mant; split <;> omega
    have hx : v.expo ≤ -53 := by unfold F64.expo; split <;> omega
    calc (v.mant : ℚ) * 2 ^ v.expo ≤ 2 ^ 53 * 2 ^ (-53 : Int) := by
          gcongr
          · exact_mod_cast hm
          · norm_num
      _ ≤ 1 := by norm_num

theorem F64.clampUnit_spec (v : F64) : v.clampUnit.isFinite ∧ |v.clampUnit.toRat| ≤ 1 := by
  unfold F64.clampUnit
  split
  · rename_i h
    exact F64.abs_toRat_le_one h
  · exact F64.abs_toRat_le_one (by decide)

/-- The cut of a number that is hardly beyond one. -/
theorem cutUnit_spec {x : ℚ} (h : |x| ≤ 1 + 1 / 2 ^ 52) :
    (F64.cutUnit x).isFinite ∧ |(F64.cutUnit x).toRat| ≤ 1 ∧ |(F64.cutUnit x).toRat - x| ≤ 1 / 2 ^ 52 := by
  have kl : min ⌊|x| * 2 ^ 52⌋₊ (2 ^ 52) < 2 ^ 53 := by omega
  have nonneg : 0 ≤ |x| * 2 ^ 52 := by positivity
  have lo := Nat.floor_le nonneg
  have hi := Nat.lt_floor_add_one (|x| * 2 ^ 52)
  refine ⟨F64.isFinite_grid kl (by norm_num), ?_⟩
  unfold F64.cutUnit
  rw [F64.toRat_grid kl (by norm_num)]
  generalize hk : min ⌊|x| * 2 ^ 52⌋₊ (2 ^ 52) = k
  have k1 : (k : ℚ) / 2 ^ 52 ≤ 1 := by
    rw [div_le_one (by positivity)]
    exact_mod_cast (by omega : k ≤ 2 ^ 52)
  have kx : |(k : ℚ) / 2 ^ 52 - (|x|)| ≤ 1 / 2 ^ 52 := by
    rw [abs_le]
    have up : (k : ℚ) ≤ |x| * 2 ^ 52 := (Nat.cast_le.2 (by omega : k ≤ ⌊|x| * 2 ^ 52⌋₊)).trans lo
    have down : |x| * 2 ^ 52 ≤ k + 1 := by
      rcases Nat.le_total ⌊|x| * 2 ^ 52⌋₊ (2 ^ 52) with c | c
      · rw [show k = ⌊|x| * 2 ^ 52⌋₊ by omega]
        exact hi.le
      · rw [show k = 2 ^ 52 by omega]
        push_cast
        linarith
    constructor
    · rw [div_sub' (by positivity), le_div_iff₀ (by positivity)]
      linarith
    · rw [div_sub' (by positivity), div_le_div_iff_of_pos_right (by positivity)]
      linarith
  have k0 : (0 : ℚ) ≤ (k : ℚ) / 2 ^ 52 := by positivity
  generalize (k : ℚ) / 2 ^ 52 = q at *
  by_cases hx : x < 0
  · simp only [hx, decide_true, if_true, neg_one_mul, abs_neg, abs_of_nonneg k0, abs_of_neg hx] at *
    refine ⟨k1, ?_⟩
    rw [abs_le] at *
    constructor <;> linarith
  · simp only [hx, decide_false, Bool.false_eq_true, if_false, one_mul, abs_of_nonneg k0, abs_of_nonneg (not_lt.1 hx)] at *
    exact ⟨k1, kx⟩

/-- What a free value admitted by R110 can be: finite, within the unit interval, and as close to the series as asked. -/
theorem Numerics.within_spec {series : ℚ → ℚ} {m : F64} (free : F64 → F64) (hm : m.toRat ≤ Numerics.sincosRange)
    (hs : |series m.toRat| ≤ 1 + Numerics.seriesEps) :
    (Numerics.within series free m).isFinite ∧ |(Numerics.within series free m).toRat| ≤ 1 ∧
      |(Numerics.within series free m).toRat - series m.toRat| ≤ Config.sincosEps + Numerics.seriesEps := by
  unfold Numerics.within
  obtain ⟨h1, h2⟩ := F64.clampUnit_spec (free m)
  dsimp only
  split
  · rename_i h
    exact ⟨h1, h2, h.resolve_left (not_lt.2 hm)⟩
  · obtain ⟨c1, c2, c3⟩ := cutUnit_spec (hs.trans (by norm_num [Numerics.seriesEps]))
    exact ⟨c1, c2, c3.trans (by norm_num [Config.sincosEps, Numerics.seriesEps])⟩

end Sys2Proof
end

