-- ==== Sys2Proof/Laws/Operands.lean ====
section
/-! SUPPORT. The operand helpers of Machine/Operands.lean: lengths, both directions of each byte order, and the numbers that
the extensions give. -/

namespace Sys2Proof

@[simp] theorem Half.toBytes_length (v : Half) : (Half.toBytes v).length = 2 := rfl
@[simp] theorem LE32_length (n : Nat) : (LE32 n).length = 4 := rfl

/-! ## Bytes of a known length -/

@[simp] theorem ByteVec.length_bytes {n : Nat} (v : ByteVec n) : v.bytes.length = n := v.length_eq

/-- Two operands with the same bytes are one. -/
@[ext] theorem ByteVec.ext_bytes {n : Nat} {v w : ByteVec n} (h : v.bytes = w.bytes) : v = w := by
  cases v
  cases w
  cases h
  rfl

@[simp] theorem ByteVec.ofBytes_bytes {n : Nat} (v : ByteVec n) : ByteVec.ofBytes n v.bytes = some v := by
  simp [ByteVec.ofBytes]

/-- Bytes that are read as an operand are its bytes. -/
theorem ByteVec.bytes_of_ofBytes {n : Nat} {b : Bytes} {v : ByteVec n} (h : ByteVec.ofBytes n b = some v) : b = v.bytes := by
  unfold ByteVec.ofBytes at h
  split at h
  · cases h
    rfl
  · cases h

/-- Bytes of another length are no operand. -/
theorem ByteVec.ofBytes_of_ne {n : Nat} {b : Bytes} (h : b.length ≠ n) : ByteVec.ofBytes n b = none := by
  simp [ByteVec.ofBytes, h]

/-- The length of an ack is `ACK_LEN`. -/
@[simp] theorem ackFrame_length (a : AckBytes) (st : Byte) : (ackFrame a st).length = Config.ackLen := by
  simp [ackFrame, Config.ackIgnoredLen, Config.ackLen, Config.ackStatusOffset]

/-- The bytes of an ack: the status comes last. -/
@[simp] theorem ackFrame_eq (a : AckBytes) (st : Byte) : ackFrame a st = a.bytes ++ [st] := by
  have h : a.bytes.length = Config.ackStatusOffset := a.length_eq
  rw [ackFrame, List.take_of_length_le h.le, List.drop_of_length_le h.le]

/-- A header's flag, as the unsigned number of 30_encoding.md R59. -/
theorem Header.noTarget_iff (h : Header) : h.noTarget = true ↔ (h.bytes.getD 4 0).toNat ≤ 1 := decide_eq_true_iff

/-- The length field, written out. -/
theorem LE32_eq (n : Nat) : LE32 n =
    [BitVec.ofNat 8 n, BitVec.ofNat 8 (n / 2 ^ 8), BitVec.ofNat 8 (n / 2 ^ 16), BitVec.ofNat 8 (n / 2 ^ 24)] := by
  simp only [LE32, Config.lenFieldBytes, leBytes, Nat.div_div_eq_div_mul, ← pow_add]

/-- Four bytes, least significant first. -/
theorem leNat_four (b0 b1 b2 b3 : Byte) : leNat [b0, b1, b2, b3] = le32 b0 b1 b2 b3 := by
  simp only [leNat, le32]
  omega

/-- The low bytes of a number stand for it, modulo what they leave out. -/
theorem leNat_leBytes (n w : Nat) : leNat (leBytes n w) = w % 2 ^ (8 * n) := by
  induction n generalizing w with
  | zero => simp [leNat, leBytes, Nat.mod_one]
  | succ n ih =>
    rw [leBytes, leNat, ih, BitVec.toNat_ofNat, Nat.mul_succ, Nat.add_comm (8 * n) 8, pow_add, Nat.mod_mul]

theorem le16_toNat (b0 b1 : Byte) : (le16 b0 b1).toNat = b0.toNat + 2 ^ 8 * b1.toNat := by
  rw [le16, BitVec.toNat_append, ← Nat.shiftLeft_add_eq_or_of_lt b0.isLt, Nat.shiftLeft_eq]
  omega

/-- A field read from the bytes it is written as. -/
@[simp] theorem le16_extract (v : Half) : le16 (v.extractLsb' 0 8) (v.extractLsb' 8 8) = v := by
  apply BitVec.eq_of_toNat_eq
  have := v.isLt
  rw [le16_toNat, BitVec.extractLsb'_toNat, BitVec.extractLsb'_toNat, Nat.shiftRight_eq_div_pow, Nat.shiftRight_eq_div_pow]
  omega

/-- A field written as the bytes it was read from. -/
@[simp] theorem Half.toBytes_le16 (b0 b1 : Byte) : Half.toBytes (le16 b0 b1) = [b0, b1] := by
  have h0 := b0.isLt
  have h1 := b1.isLt
  have h := le16_toNat b0 b1
  have e0 : (le16 b0 b1).extractLsb' 0 8 = b0 := by
    apply BitVec.eq_of_toNat_eq
    rw [BitVec.extractLsb'_toNat, Nat.shiftRight_eq_div_pow, h]
    omega
  have e1 : (le16 b0 b1).extractLsb' 8 8 = b1 := by
    apply BitVec.eq_of_toNat_eq
    rw [BitVec.extractLsb'_toNat, Nat.shiftRight_eq_div_pow, h]
    omega
  rw [Half.toBytes, e0, e1]

theorem le32_lt (b0 b1 b2 b3 : Byte) : le32 b0 b1 b2 b3 < 2 ^ 32 := by
  have h0 := b0.isLt
  have h1 := b1.isLt
  have h2 := b2.isLt
  have h3 := b3.isLt
  unfold le32
  omega

/-- A length below `2^32` read from its own length field. -/
theorem le32_LE32 {n : Nat} (h : n < 2 ^ 32) :
    le32 (BitVec.ofNat 8 n) (BitVec.ofNat 8 (n / 2 ^ 8)) (BitVec.ofNat 8 (n / 2 ^ 16)) (BitVec.ofNat 8 (n / 2 ^ 24)) = n := by
  simp only [le32, BitVec.toNat_ofNat]
  omega

/-- A length field written as the bytes it was read from. -/
@[simp] theorem LE32_le32 (b0 b1 b2 b3 : Byte) : LE32 (le32 b0 b1 b2 b3) = [b0, b1, b2, b3] := by
  have h0 := b0.isLt
  have h1 := b1.isLt
  have h2 := b2.isLt
  have h3 := b3.isLt
  simp only [LE32_eq, le32, List.cons.injEq, and_true]
  refine ⟨?_, ?_, ?_, ?_⟩ <;> apply BitVec.eq_of_toNat_eq <;> simp only [BitVec.toNat_ofNat] <;> omega

/-- The extension of the spec is the two's complement reading. -/
theorem sext16_eq_toInt (v : Half) : sext16 v = v.toInt := by
  have := v.isLt
  rw [sext16, BitVec.toInt_eq_toNat_cond]
  split <;> split <;> omega

theorem sext16_bounds (v : Half) : -32768 ≤ sext16 v ∧ sext16 v ≤ 32767 := by
  have := v.isLt
  unfold sext16
  split <;> constructor <;> omega

theorem sext16_injective {v w : Half} (h : sext16 v = sext16 w) : v = w := by
  have h1 := v.isLt
  have h2 := w.isLt
  apply BitVec.eq_of_toNat_eq
  unfold sext16 at h
  split at h <;> split at h <;> omega

end Sys2Proof
end

