-- ==== Sys2Proof/Laws/State.lean ====
section
/-! SUPPORT. One lemma for each field of State under each update of Machine/Ops.lean, tagged simp, so that no later proof
unfolds a record update. The first groups are true by rfl; a primitive that may fail is split once here. -/

namespace Sys2Proof.Machine

variable (s : State)

/-! ## State.answer -/
@[simp] theorem State.answer_session (r : Option PortResult) : (s.answer r).session = s.session := rfl
@[simp] theorem State.answer_phase (r : Option PortResult) : (s.answer r).phase = s.phase := rfl
@[simp] theorem State.answer_baud (r : Option PortResult) : (s.answer r).baud = s.baud := rfl
@[simp] theorem State.answer_handle (r : Option PortResult) : (s.answer r).handle = s.handle := rfl
@[simp] theorem State.answer_port (r : Option PortResult) : (s.answer r).port = s.port := rfl
@[simp] theorem State.answer_framing (r : Option PortResult) : (s.answer r).framing = s.framing := rfl
@[simp] theorem State.answer_records (r : Option PortResult) : (s.answer r).records = s.records := rfl
@[simp] theorem State.answer_sessionOutcome (r : Option PortResult) : (s.answer r).sessionOutcome = s.sessionOutcome := rfl
@[simp] theorem State.answer_cancelRequested (r : Option PortResult) : (s.answer r).cancelRequested = s.cancelRequested := rfl
@[simp] theorem State.answer_tx (r : Option PortResult) : (s.answer r).tx = s.tx := rfl
@[simp] theorem State.answer_rx (r : Option PortResult) : (s.answer r).rx = s.rx := rfl
@[simp] theorem State.answer_reader (r : Option PortResult) : (s.answer r).reader = s.reader := rfl
@[simp] theorem State.answer_calls (r : Option PortResult) : (s.answer r).calls = s.calls := rfl
@[simp] theorem State.answer_result (r : Option PortResult) : (s.answer r).result = r := rfl
@[simp] theorem State.answer_trace (r : Option PortResult) : (s.answer r).trace = s.trace := rfl
@[simp] theorem State.answer_startEvent (r : Option PortResult) : (s.answer r).startEvent = s.startEvent := rfl
@[simp] theorem State.answer_replies (r : Option PortResult) : (s.answer r).replies = s.replies := rfl
@[simp] theorem State.answer_transportUsable (r : Option PortResult) : (s.answer r).transportUsable = s.transportUsable := rfl
@[simp] theorem State.answer_draws (r : Option PortResult) : (s.answer r).draws = s.draws := rfl
@[simp] theorem State.answer_payloads (r : Option PortResult) : (s.answer r).payloads = s.payloads := rfl

/-! ## State.log -/
@[simp] theorem State.log_session (e : Effect) : (s.log e).session = s.session := rfl
@[simp] theorem State.log_phase (e : Effect) : (s.log e).phase = s.phase := rfl
@[simp] theorem State.log_baud (e : Effect) : (s.log e).baud = s.baud := rfl
@[simp] theorem State.log_handle (e : Effect) : (s.log e).handle = s.handle := rfl
@[simp] theorem State.log_port (e : Effect) : (s.log e).port = s.port := rfl
@[simp] theorem State.log_framing (e : Effect) : (s.log e).framing = s.framing := rfl
@[simp] theorem State.log_records (e : Effect) : (s.log e).records = s.records := rfl
@[simp] theorem State.log_sessionOutcome (e : Effect) : (s.log e).sessionOutcome = s.sessionOutcome := rfl
@[simp] theorem State.log_cancelRequested (e : Effect) : (s.log e).cancelRequested = s.cancelRequested := rfl
@[simp] theorem State.log_tx (e : Effect) : (s.log e).tx = s.tx := rfl
@[simp] theorem State.log_rx (e : Effect) : (s.log e).rx = s.rx := rfl
@[simp] theorem State.log_reader (e : Effect) : (s.log e).reader = s.reader := rfl
@[simp] theorem State.log_calls (e : Effect) : (s.log e).calls = s.calls := rfl
@[simp] theorem State.log_result (e : Effect) : (s.log e).result = s.result := rfl
@[simp] theorem State.log_trace (e : Effect) : (s.log e).trace = s.trace ++ [e] := rfl
@[simp] theorem State.log_startEvent (e : Effect) : (s.log e).startEvent = s.startEvent := rfl
@[simp] theorem State.log_replies (e : Effect) : (s.log e).replies = s.replies := rfl
@[simp] theorem State.log_transportUsable (e : Effect) : (s.log e).transportUsable = s.transportUsable := rfl
@[simp] theorem State.log_draws (e : Effect) : (s.log e).draws = s.draws := rfl
@[simp] theorem State.log_payloads (e : Effect) : (s.log e).payloads = s.payloads := rfl

/-! ## State.enter -/
@[simp] theorem State.enter_session (st : SessionState) : (s.enter st).session = st := rfl
@[simp] theorem State.enter_phase (st : SessionState) : (s.enter st).phase = s.phase := rfl
@[simp] theorem State.enter_baud (st : SessionState) : (s.enter st).baud = s.baud := rfl
@[simp] theorem State.enter_handle (st : SessionState) : (s.enter st).handle = s.handle := rfl
@[simp] theorem State.enter_port (st : SessionState) : (s.enter st).port = s.port := rfl
@[simp] theorem State.enter_framing (st : SessionState) : (s.enter st).framing = s.framing := rfl
@[simp] theorem State.enter_records (st : SessionState) : (s.enter st).records = s.records := rfl
@[simp] theorem State.enter_sessionOutcome (st : SessionState) : (s.enter st).sessionOutcome = s.sessionOutcome := rfl
@[simp] theorem State.enter_cancelRequested (st : SessionState) : (s.enter st).cancelRequested = s.cancelRequested := rfl
@[simp] theorem State.enter_tx (st : SessionState) : (s.enter st).tx = s.tx := rfl
@[simp] theorem State.enter_rx (st : SessionState) : (s.enter st).rx = s.rx := rfl
@[simp] theorem State.enter_reader (st : SessionState) : (s.enter st).reader = s.reader := rfl
@[simp] theorem State.enter_calls (st : SessionState) : (s.enter st).calls = s.calls := rfl
@[simp] theorem State.enter_result (st : SessionState) : (s.enter st).result = s.result := rfl
@[simp] theorem State.enter_trace (st : SessionState) : (s.enter st).trace = s.trace := rfl
@[simp] theorem State.enter_startEvent (st : SessionState) : (s.enter st).startEvent = s.startEvent := rfl
@[simp] theorem State.enter_replies (st : SessionState) : (s.enter st).replies = s.replies := rfl
@[simp] theorem State.enter_transportUsable (st : SessionState) : (s.enter st).transportUsable = s.transportUsable := rfl
@[simp] theorem State.enter_draws (st : SessionState) : (s.enter st).draws = s.draws := rfl
@[simp] theorem State.enter_payloads (st : SessionState) : (s.enter st).payloads = s.payloads := rfl

/-! ## State.setPhase -/
@[simp] theorem State.setPhase_session (p : Phase) : (s.setPhase p).session = s.session := rfl
@[simp] theorem State.setPhase_phase (p : Phase) : (s.setPhase p).phase = p := rfl
@[simp] theorem State.setPhase_baud (p : Phase) : (s.setPhase p).baud = s.baud := rfl
@[simp] theorem State.setPhase_handle (p : Phase) : (s.setPhase p).handle = s.handle := rfl
@[simp] theorem State.setPhase_port (p : Phase) : (s.setPhase p).port = s.port := rfl
@[simp] theorem State.setPhase_framing (p : Phase) : (s.setPhase p).framing = s.framing := rfl
@[simp] theorem State.setPhase_records (p : Phase) : (s.setPhase p).records = s.records := rfl
@[simp] theorem State.setPhase_sessionOutcome (p : Phase) : (s.setPhase p).sessionOutcome = s.sessionOutcome := rfl
@[simp] theorem State.setPhase_cancelRequested (p : Phase) : (s.setPhase p).cancelRequested = s.cancelRequested := rfl
@[simp] theorem State.setPhase_tx (p : Phase) : (s.setPhase p).tx = s.tx := rfl
@[simp] theorem State.setPhase_rx (p : Phase) : (s.setPhase p).rx = s.rx := rfl
@[simp] theorem State.setPhase_reader (p : Phase) : (s.setPhase p).reader = s.reader := rfl
@[simp] theorem State.setPhase_calls (p : Phase) : (s.setPhase p).calls = s.calls := rfl
@[simp] theorem State.setPhase_result (p : Phase) : (s.setPhase p).result = s.result := rfl
@[simp] theorem State.setPhase_trace (p : Phase) : (s.setPhase p).trace = s.trace := rfl
@[simp] theorem State.setPhase_startEvent (p : Phase) : (s.setPhase p).startEvent = s.startEvent := rfl
@[simp] theorem State.setPhase_replies (p : Phase) : (s.setPhase p).replies = s.replies := rfl
@[simp] theorem State.setPhase_transportUsable (p : Phase) : (s.setPhase p).transportUsable = s.transportUsable := rfl
@[simp] theorem State.setPhase_draws (p : Phase) : (s.setPhase p).draws = s.draws := rfl
@[simp] theorem State.setPhase_payloads (p : Phase) : (s.setPhase p).payloads = s.payloads := rfl

/-! ## State.built -/
@[simp] theorem State.built_session (tag payload : Bytes) : (s.built tag payload).session = s.session := rfl
@[simp] theorem State.built_phase (tag payload : Bytes) : (s.built tag payload).phase = s.phase := rfl
@[simp] theorem State.built_baud (tag payload : Bytes) : (s.built tag payload).baud = s.baud := rfl
@[simp] theorem State.built_handle (tag payload : Bytes) : (s.built tag payload).handle = s.handle := rfl
@[simp] theorem State.built_port (tag payload : Bytes) : (s.built tag payload).port = s.port := rfl
@[simp] theorem State.built_framing (tag payload : Bytes) : (s.built tag payload).framing = s.framing := rfl
@[simp] theorem State.built_records (tag payload : Bytes) : (s.built tag payload).records = s.records := rfl
@[simp] theorem State.built_sessionOutcome (tag payload : Bytes) : (s.built tag payload).sessionOutcome = s.sessionOutcome := rfl
@[simp] theorem State.built_cancelRequested (tag payload : Bytes) : (s.built tag payload).cancelRequested = s.cancelRequested := rfl
@[simp] theorem State.built_tx (tag payload : Bytes) : (s.built tag payload).tx = s.tx := rfl
@[simp] theorem State.built_rx (tag payload : Bytes) : (s.built tag payload).rx = s.rx := rfl
@[simp] theorem State.built_reader (tag payload : Bytes) : (s.built tag payload).reader = s.reader := rfl
@[simp] theorem State.built_calls (tag payload : Bytes) : (s.built tag payload).calls = s.calls := rfl
@[simp] theorem State.built_result (tag payload : Bytes) : (s.built tag payload).result = some (.enc (encodeCommand tag payload)) := rfl
@[simp] theorem State.built_trace (tag payload : Bytes) : (s.built tag payload).trace = s.trace := rfl
@[simp] theorem State.built_startEvent (tag payload : Bytes) : (s.built tag payload).startEvent = s.startEvent := rfl
@[simp] theorem State.built_replies (tag payload : Bytes) : (s.built tag payload).replies = s.replies := rfl
@[simp] theorem State.built_transportUsable (tag payload : Bytes) : (s.built tag payload).transportUsable = s.transportUsable := rfl
@[simp] theorem State.built_draws (tag payload : Bytes) : (s.built tag payload).draws = s.draws := rfl
@[simp] theorem State.built_payloads (tag payload : Bytes) : (s.built tag payload).payloads = s.payloads := rfl

/-! ## State.useReply -/
@[simp] theorem State.useReply_session : (s.useReply).session = s.session := rfl
@[simp] theorem State.useReply_phase : (s.useReply).phase = s.phase := rfl
@[simp] theorem State.useReply_baud : (s.useReply).baud = s.baud := rfl
@[simp] theorem State.useReply_handle : (s.useReply).handle = s.handle := rfl
@[simp] theorem State.useReply_port : (s.useReply).port = s.port := rfl
@[simp] theorem State.useReply_framing : (s.useReply).framing = s.framing := rfl
@[simp] theorem State.useReply_records : (s.useReply).records = s.records := rfl
@[simp] theorem State.useReply_sessionOutcome : (s.useReply).sessionOutcome = s.sessionOutcome := rfl
@[simp] theorem State.useReply_cancelRequested : (s.useReply).cancelRequested = (s.cancelRequested || s.nextReply.cancel) := rfl
@[simp] theorem State.useReply_tx : (s.useReply).tx = s.tx := rfl
@[simp] theorem State.useReply_rx : (s.useReply).rx = s.rx ++ s.nextReply.arrived := rfl
@[simp] theorem State.useReply_reader : (s.useReply).reader = s.reader := rfl
@[simp] theorem State.useReply_calls : (s.useReply).calls = s.calls := rfl
@[simp] theorem State.useReply_result : (s.useReply).result = s.result := rfl
@[simp] theorem State.useReply_trace : (s.useReply).trace = s.trace := rfl
@[simp] theorem State.useReply_startEvent : (s.useReply).startEvent = s.startEvent := rfl
@[simp] theorem State.useReply_replies : (s.useReply).replies = s.replies.tail := rfl
@[simp] theorem State.useReply_transportUsable : (s.useReply).transportUsable = s.transportUsable := rfl
@[simp] theorem State.useReply_draws : (s.useReply).draws = if s.replies.isEmpty then s.draws + 1 else s.draws := rfl
@[simp] theorem State.useReply_payloads : (s.useReply).payloads = s.payloads := rfl

/-! ## State.closePort -/
@[simp] theorem State.closePort_session : (s.closePort).session = s.session := rfl
@[simp] theorem State.closePort_phase : (s.closePort).phase = s.phase := rfl
@[simp] theorem State.closePort_baud : (s.closePort).baud = s.baud := rfl
@[simp] theorem State.closePort_handle : (s.closePort).handle = none := rfl
@[simp] theorem State.closePort_port : (s.closePort).port = s.port := rfl
@[simp] theorem State.closePort_framing : (s.closePort).framing = s.framing := rfl
@[simp] theorem State.closePort_records : (s.closePort).records = s.records := rfl
@[simp] theorem State.closePort_sessionOutcome : (s.closePort).sessionOutcome = s.sessionOutcome := rfl
@[simp] theorem State.closePort_cancelRequested : (s.closePort).cancelRequested = (s.cancelRequested || s.nextReply.cancel) := rfl
@[simp] theorem State.closePort_tx : (s.closePort).tx = s.tx := rfl
@[simp] theorem State.closePort_rx : (s.closePort).rx = s.rx ++ s.nextReply.arrived := rfl
@[simp] theorem State.closePort_reader : (s.closePort).reader = s.reader := rfl
@[simp] theorem State.closePort_calls : (s.closePort).calls = s.calls := rfl
@[simp] theorem State.closePort_result : (s.closePort).result = s.result := rfl
@[simp] theorem State.closePort_trace : (s.closePort).trace = s.trace ++ [.closed (!s.nextReply.ioError)] := rfl
@[simp] theorem State.closePort_startEvent : (s.closePort).startEvent = s.startEvent := rfl
@[simp] theorem State.closePort_replies : (s.closePort).replies = s.replies.tail := rfl
@[simp] theorem State.closePort_transportUsable : (s.closePort).transportUsable = s.transportUsable := rfl
@[simp] theorem State.closePort_draws : (s.closePort).draws = if s.replies.isEmpty then s.draws + 1 else s.draws := rfl
@[simp] theorem State.closePort_payloads : (s.closePort).payloads = s.payloads := rfl

/-! ## State.finish -/
@[simp] theorem State.finish_session (o : SessionOutcome) : (s.finish o).session = .disconnected := rfl
@[simp] theorem State.finish_phase (o : SessionOutcome) : (s.finish o).phase = .ready := rfl
@[simp] theorem State.finish_baud (o : SessionOutcome) : (s.finish o).baud = s.baud := rfl
@[simp] theorem State.finish_handle (o : SessionOutcome) : (s.finish o).handle = s.handle := rfl
@[simp] theorem State.finish_port (o : SessionOutcome) : (s.finish o).port = s.port := rfl
@[simp] theorem State.finish_framing (o : SessionOutcome) : (s.finish o).framing = s.framing := rfl
@[simp] theorem State.finish_records (o : SessionOutcome) : (s.finish o).records = s.records := rfl
@[simp] theorem State.finish_sessionOutcome (o : SessionOutcome) : (s.finish o).sessionOutcome = some o := rfl
@[simp] theorem State.finish_cancelRequested (o : SessionOutcome) : (s.finish o).cancelRequested = s.cancelRequested := rfl
@[simp] theorem State.finish_tx (o : SessionOutcome) : (s.finish o).tx = s.tx := rfl
@[simp] theorem State.finish_rx (o : SessionOutcome) : (s.finish o).rx = s.rx := rfl
@[simp] theorem State.finish_reader (o : SessionOutcome) : (s.finish o).reader = s.reader := rfl
@[simp] theorem State.finish_calls (o : SessionOutcome) : (s.finish o).calls = s.calls := rfl
@[simp] theorem State.finish_result (o : SessionOutcome) : (s.finish o).result = s.result := rfl
@[simp] theorem State.finish_trace (o : SessionOutcome) : (s.finish o).trace = s.trace ++ [.handedOver s.records o] := rfl
@[simp] theorem State.finish_startEvent (o : SessionOutcome) : (s.finish o).startEvent = s.startEvent := rfl
@[simp] theorem State.finish_replies (o : SessionOutcome) : (s.finish o).replies = s.replies := rfl
@[simp] theorem State.finish_transportUsable (o : SessionOutcome) : (s.finish o).transportUsable = s.transportUsable := rfl
@[simp] theorem State.finish_draws (o : SessionOutcome) : (s.finish o).draws = s.draws := rfl
@[simp] theorem State.finish_payloads (o : SessionOutcome) : (s.finish o).payloads = s.payloads := rfl

/-! ## State.write -/
@[simp] theorem State.write_session (bytes : Bytes) : ((s.write bytes).2).session = s.session := by
  unfold State.write; cases s.nextReply.ioError <;> rfl
@[simp] theorem State.write_phase (bytes : Bytes) : ((s.write bytes).2).phase = s.phase := by
  unfold State.write; cases s.nextReply.ioError <;> rfl
@[simp] theorem State.write_baud (bytes : Bytes) : ((s.write bytes).2).baud = s.baud := by
  unfold State.write; cases s.nextReply.ioError <;> rfl
@[simp] theorem State.write_handle (bytes : Bytes) : ((s.write bytes).2).handle = s.handle := by
  unfold State.write; cases s.nextReply.ioError <;> rfl
@[simp] theorem State.write_port (bytes : Bytes) : ((s.write bytes).2).port = s.port := by
  unfold State.write; cases s.nextReply.ioError <;> rfl
@[simp] theorem State.write_framing (bytes : Bytes) : ((s.write bytes).2).framing = s.framing := by
  unfold State.write; cases s.nextReply.ioError <;> rfl
@[simp] theorem State.write_records (bytes : Bytes) : ((s.write bytes).2).records = s.records := by
  unfold State.write; cases s.nextReply.ioError <;> rfl
@[simp] theorem State.write_sessionOutcome (bytes : Bytes) : ((s.write bytes).2).sessionOutcome = s.sessionOutcome := by
  unfold State.write; cases s.nextReply.ioError <;> rfl
@[simp] theorem State.write_cancelRequested (bytes : Bytes) : ((s.write bytes).2).cancelRequested = (s.cancelRequested || s.nextReply.cancel) := by
  unfold State.write; cases s.nextReply.ioError <;> rfl
@[simp] theorem State.write_tx (bytes : Bytes) : ((s.write bytes).2).tx = if s.nextReply.ioError then s.tx else s.tx ++ bytes := by
  unfold State.write; cases s.nextReply.ioError <;> rfl
@[simp] theorem State.write_rx (bytes : Bytes) : ((s.write bytes).2).rx = s.rx ++ s.nextReply.arrived := by
  unfold State.write; cases s.nextReply.ioError <;> rfl
@[simp] theorem State.write_reader (bytes : Bytes) : ((s.write bytes).2).reader = s.reader := by
  unfold State.write; cases s.nextReply.ioError <;> rfl
@[simp] theorem State.write_calls (bytes : Bytes) : ((s.write bytes).2).calls = s.calls := by
  unfold State.write; cases s.nextReply.ioError <;> rfl
@[simp] theorem State.write_result (bytes : Bytes) : ((s.write bytes).2).result = s.result := by
  unfold State.write; cases s.nextReply.ioError <;> rfl
@[simp] theorem State.write_trace (bytes : Bytes) : ((s.write bytes).2).trace = s.trace ++ [.wrote bytes (!s.nextReply.ioError)] := by
  unfold State.write; cases s.nextReply.ioError <;> rfl
@[simp] theorem State.write_startEvent (bytes : Bytes) : ((s.write bytes).2).startEvent = s.startEvent := by
  unfold State.write; cases s.nextReply.ioError <;> rfl
@[simp] theorem State.write_replies (bytes : Bytes) : ((s.write bytes).2).replies = s.replies.tail := by
  unfold State.write; cases s.nextReply.ioError <;> rfl
@[simp] theorem State.write_transportUsable (bytes : Bytes) : ((s.write bytes).2).transportUsable = s.transportUsable := by
  unfold State.write; cases s.nextReply.ioError <;> rfl
@[simp] theorem State.write_draws (bytes : Bytes) : ((s.write bytes).2).draws = if s.replies.isEmpty then s.draws + 1 else s.draws := by
  unfold State.write; cases s.nextReply.ioError <;> rfl
@[simp] theorem State.write_payloads (bytes : Bytes) : ((s.write bytes).2).payloads = s.payloads := by
  unfold State.write; cases s.nextReply.ioError <;> rfl

/-! ## State.read -/
@[simp] theorem State.read_session (n : Nat) : ((s.read n).2).session = s.session := by
  unfold State.read; cases s.nextReply.ioError <;> rfl
@[simp] theorem State.read_phase (n : Nat) : ((s.read n).2).phase = s.phase := by
  unfold State.read; cases s.nextReply.ioError <;> rfl
@[simp] theorem State.read_baud (n : Nat) : ((s.read n).2).baud = s.baud := by
  unfold State.read; cases s.nextReply.ioError <;> rfl
@[simp] theorem State.read_handle (n : Nat) : ((s.read n).2).handle = s.handle := by
  unfold State.read; cases s.nextReply.ioError <;> rfl
@[simp] theorem State.read_port (n : Nat) : ((s.read n).2).port = s.port := by
  unfold State.read; cases s.nextReply.ioError <;> rfl
@[simp] theorem State.read_framing (n : Nat) : ((s.read n).2).framing = s.framing := by
  unfold State.read; cases s.nextReply.ioError <;> rfl
@[simp] theorem State.read_records (n : Nat) : ((s.read n).2).records = s.records := by
  unfold State.read; cases s.nextReply.ioError <;> rfl
@[simp] theorem State.read_sessionOutcome (n : Nat) : ((s.read n).2).sessionOutcome = s.sessionOutcome := by
  unfold State.read; cases s.nextReply.ioError <;> rfl
@[simp] theorem State.read_cancelRequested (n : Nat) : ((s.read n).2).cancelRequested = (s.cancelRequested || s.nextReply.cancel) := by
  unfold State.read; cases s.nextReply.ioError <;> rfl
@[simp] theorem State.read_tx (n : Nat) : ((s.read n).2).tx = s.tx := by
  unfold State.read; cases s.nextReply.ioError <;> rfl
@[simp] theorem State.read_rx (n : Nat) : ((s.read n).2).rx = (s.rx ++ s.nextReply.arrived).drop (if s.nextReply.ioError then s.nextReply.lost else n) := by
  unfold State.read; cases s.nextReply.ioError <;> rfl
@[simp] theorem State.read_reader (n : Nat) : ((s.read n).2).reader = s.reader := by
  unfold State.read; cases s.nextReply.ioError <;> rfl
@[simp] theorem State.read_calls (n : Nat) : ((s.read n).2).calls = s.calls := by
  unfold State.read; cases s.nextReply.ioError <;> rfl
@[simp] theorem State.read_result (n : Nat) : ((s.read n).2).result = s.result := by
  unfold State.read; cases s.nextReply.ioError <;> rfl
@[simp] theorem State.read_startEvent (n : Nat) : ((s.read n).2).startEvent = s.startEvent := by
  unfold State.read; cases s.nextReply.ioError <;> rfl
@[simp] theorem State.read_replies (n : Nat) : ((s.read n).2).replies = s.replies.tail := by
  unfold State.read; cases s.nextReply.ioError <;> rfl
@[simp] theorem State.read_transportUsable (n : Nat) : ((s.read n).2).transportUsable = s.transportUsable := by
  unfold State.read; cases s.nextReply.ioError <;> rfl
@[simp] theorem State.read_draws (n : Nat) : ((s.read n).2).draws = if s.replies.isEmpty then s.draws + 1 else s.draws := by
  unfold State.read; cases s.nextReply.ioError <;> rfl
@[simp] theorem State.read_payloads (n : Nat) : ((s.read n).2).payloads = s.payloads := by
  unfold State.read; cases s.nextReply.ioError <;> rfl

/-! ## State.setBaud -/
@[simp] theorem State.setBaud_session (rate : Nat) : ((s.setBaud rate).2).session = s.session := by
  unfold State.setBaud; cases s.nextReply.ioError <;> rfl
@[simp] theorem State.setBaud_phase (rate : Nat) : ((s.setBaud rate).2).phase = s.phase := by
  unfold State.setBaud; cases s.nextReply.ioError <;> rfl
@[simp] theorem State.setBaud_baud (rate : Nat) : ((s.setBaud rate).2).baud = if s.nextReply.ioError then s.baud else some rate := by
  unfold State.setBaud; cases s.nextReply.ioError <;> rfl
@[simp] theorem State.setBaud_handle (rate : Nat) : ((s.setBaud rate).2).handle = s.handle := by
  unfold State.setBaud; cases s.nextReply.ioError <;> rfl
@[simp] theorem State.setBaud_port (rate : Nat) : ((s.setBaud rate).2).port = s.port := by
  unfold State.setBaud; cases s.nextReply.ioError <;> rfl
@[simp] theorem State.setBaud_framing (rate : Nat) : ((s.setBaud rate).2).framing = s.framing := by
  unfold State.setBaud; cases s.nextReply.ioError <;> rfl
@[simp] theorem State.setBaud_records (rate : Nat) : ((s.setBaud rate).2).records = s.records := by
  unfold State.setBaud; cases s.nextReply.ioError <;> rfl
@[simp] theorem State.setBaud_sessionOutcome (rate : Nat) : ((s.setBaud rate).2).sessionOutcome = s.sessionOutcome := by
  unfold State.setBaud; cases s.nextReply.ioError <;> rfl
@[simp] theorem State.setBaud_cancelRequested (rate : Nat) : ((s.setBaud rate).2).cancelRequested = (s.cancelRequested || s.nextReply.cancel) := by
  unfold State.setBaud; cases s.nextReply.ioError <;> rfl
@[simp] theorem State.setBaud_tx (rate : Nat) : ((s.setBaud rate).2).tx = s.tx := by
  unfold State.setBaud; cases s.nextReply.ioError <;> rfl
@[simp] theorem State.setBaud_rx (rate : Nat) : ((s.setBaud rate).2).rx = s.nextReply.rewritten.getD (s.rx ++ s.nextReply.arrived) := by
  unfold State.setBaud; cases s.nextReply.ioError <;> rfl
@[simp] theorem State.setBaud_reader (rate : Nat) : ((s.setBaud rate).2).reader = s.reader := by
  unfold State.setBaud; cases s.nextReply.ioError <;> rfl
@[simp] theorem State.setBaud_calls (rate : Nat) : ((s.setBaud rate).2).calls = s.calls := by
  unfold State.setBaud; cases s.nextReply.ioError <;> rfl
@[simp] theorem State.setBaud_result (rate : Nat) : ((s.setBaud rate).2).result = s.result := by
  unfold State.setBaud; cases s.nextReply.ioError <;> rfl
@[simp] theorem State.setBaud_trace (rate : Nat) : ((s.setBaud rate).2).trace = s.trace ++ [.baudSet rate (!s.nextReply.ioError)] := by
  unfold State.setBaud; cases s.nextReply.ioError <;> rfl
@[simp] theorem State.setBaud_startEvent (rate : Nat) : ((s.setBaud rate).2).startEvent = s.startEvent := by
  unfold State.setBaud; cases s.nextReply.ioError <;> rfl
@[simp] theorem State.setBaud_replies (rate : Nat) : ((s.setBaud rate).2).replies = s.replies.tail := by
  unfold State.setBaud; cases s.nextReply.ioError <;> rfl
@[simp] theorem State.setBaud_transportUsable (rate : Nat) : ((s.setBaud rate).2).transportUsable = s.transportUsable := by
  unfold State.setBaud; cases s.nextReply.ioError <;> rfl
@[simp] theorem State.setBaud_draws (rate : Nat) : ((s.setBaud rate).2).draws = if s.replies.isEmpty then s.draws + 1 else s.draws := by
  unfold State.setBaud; cases s.nextReply.ioError <;> rfl
@[simp] theorem State.setBaud_payloads (rate : Nat) : ((s.setBaud rate).2).payloads = s.payloads := by
  unfold State.setBaud; cases s.nextReply.ioError <;> rfl

/-! ## State.openPort -/
@[simp] theorem State.openPort_session (port : Nat) : ((s.openPort port).2).session = s.session := by
  unfold State.openPort; cases s.nextReply.ioError <;> rfl
@[simp] theorem State.openPort_phase (port : Nat) : ((s.openPort port).2).phase = s.phase := by
  unfold State.openPort; cases s.nextReply.ioError <;> rfl
@[simp] theorem State.openPort_baud (port : Nat) : ((s.openPort port).2).baud = if s.nextReply.ioError then s.baud else some Config.baudInit := by
  unfold State.openPort; cases s.nextReply.ioError <;> rfl
@[simp] theorem State.openPort_handle (port : Nat) : ((s.openPort port).2).handle = if s.nextReply.ioError then s.handle else some (Config.freshHandle s.useReply.draws) := by
  unfold State.openPort; cases s.nextReply.ioError <;> rfl
@[simp] theorem State.openPort_port (port : Nat) : ((s.openPort port).2).port = if s.nextReply.ioError then s.port else some port := by
  unfold State.openPort; cases s.nextReply.ioError <;> rfl
@[simp] theorem State.openPort_framing (port : Nat) : ((s.openPort port).2).framing = if s.nextReply.ioError then s.framing else serialFraming := by
  unfold State.openPort; cases s.nextReply.ioError <;> rfl
@[simp] theorem State.openPort_records (port : Nat) : ((s.openPort port).2).records = s.records := by
  unfold State.openPort; cases s.nextReply.ioError <;> rfl
@[simp] theorem State.openPort_sessionOutcome (port : Nat) : ((s.openPort port).2).sessionOutcome = s.sessionOutcome := by
  unfold State.openPort; cases s.nextReply.ioError <;> rfl
@[simp] theorem State.openPort_cancelRequested (port : Nat) : ((s.openPort port).2).cancelRequested = (s.cancelRequested || s.nextReply.cancel) := by
  unfold State.openPort; cases s.nextReply.ioError <;> rfl
@[simp] theorem State.openPort_tx (port : Nat) : ((s.openPort port).2).tx = s.tx := by
  unfold State.openPort; cases s.nextReply.ioError <;> rfl
@[simp] theorem State.openPort_rx (port : Nat) : ((s.openPort port).2).rx = s.rx ++ s.nextReply.arrived := by
  unfold State.openPort; cases s.nextReply.ioError <;> rfl
@[simp] theorem State.openPort_reader (port : Nat) : ((s.openPort port).2).reader = s.reader := by
  unfold State.openPort; cases s.nextReply.ioError <;> rfl
@[simp] theorem State.openPort_calls (port : Nat) : ((s.openPort port).2).calls = s.calls := by
  unfold State.openPort; cases s.nextReply.ioError <;> rfl
@[simp] theorem State.openPort_result (port : Nat) : ((s.openPort port).2).result = s.result := by
  unfold State.openPort; cases s.nextReply.ioError <;> rfl
@[simp] theorem State.openPort_trace (port : Nat) : ((s.openPort port).2).trace = s.trace ++ [.opened port Config.baudInit serialFraming (!s.nextReply.ioError)] := by
  unfold State.openPort; cases s.nextReply.ioError <;> rfl
@[simp] theorem State.openPort_startEvent (port : Nat) : ((s.openPort port).2).startEvent = s.startEvent := by
  unfold State.openPort; cases s.nextReply.ioError <;> rfl
@[simp] theorem State.openPort_replies (port : Nat) : ((s.openPort port).2).replies = s.replies.tail := by
  unfold State.openPort; cases s.nextReply.ioError <;> rfl
@[simp] theorem State.openPort_transportUsable (port : Nat) : ((s.openPort port).2).transportUsable = s.transportUsable := by
  unfold State.openPort; cases s.nextReply.ioError <;> rfl
@[simp] theorem State.openPort_draws (port : Nat) : ((s.openPort port).2).draws = if s.nextReply.ioError then s.useReply.draws else s.useReply.draws + 1 := by
  unfold State.openPort; cases s.nextReply.ioError <;> rfl
@[simp] theorem State.openPort_payloads (port : Nat) : ((s.openPort port).2).payloads = s.payloads := by
  unfold State.openPort; cases s.nextReply.ioError <;> rfl

/-! ## The first components -/

@[simp] theorem State.write_ok (bytes : Bytes) : (s.write bytes).1 = !s.nextReply.ioError := by
  unfold State.write; cases s.nextReply.ioError <;> rfl
@[simp] theorem State.setBaud_ok (rate : Nat) : (s.setBaud rate).1 = !s.nextReply.ioError := by
  unfold State.setBaud; cases s.nextReply.ioError <;> rfl
@[simp] theorem State.openPort_ok (port : Nat) : (s.openPort port).1 = !s.nextReply.ioError := by
  unfold State.openPort; cases s.nextReply.ioError <;> rfl
@[simp] theorem State.read_bytes (n : Nat) :
    (s.read n).1 = if s.nextReply.ioError then none else some ((s.rx ++ s.nextReply.arrived).take n) := by
  unfold State.read; cases s.nextReply.ioError <;> rfl
@[simp] theorem State.read_trace (n : Nat) :
    (s.read n).2.trace = s.trace ++ [.took n (s.read n).1] := by
  unfold State.read; cases s.nextReply.ioError <;> rfl

end Sys2Proof.Machine
end

