-- ==== Sys2Proof/Laws/Units.lean ====
section
/-! SUPPORT. The wire formats of Decode.lean and the units of Machine/Units.lean, read once: what each gives on bytes of the
length it asks for, and on any other. -/

namespace Sys2Proof

/-- Nine bytes are an ack's ignored bytes and its status. -/
theorem exists_ack_of_length {b : Bytes} (h : b.length = 9) :
    ∃ (a : AckBytes) (st : Byte), b = a.bytes ++ [st] := by
  match b, h with
  | [b0, b1, b2, b3, b4, b5, b6, b7, st], _ => exact ⟨⟨[b0, b1, b2, b3, b4, b5, b6, b7], rfl⟩, st, rfl⟩

/-- Four bytes are a list of four. -/
theorem exists_four {b : Bytes} (h : b.length = 4) : ∃ b0 b1 b2 b3, b = [b0, b1, b2, b3] := by
  match b, h with
  | [b0, b1, b2, b3], _ => exact ⟨b0, b1, b2, b3, rfl⟩

theorem commandFrame_length (o p : Bytes) : (commandFrame o p).length = o.length + 4 + p.length := by
  simp [commandFrame, Nat.add_assoc]

/-- What the parse makes of bytes written as a tag, four bytes of length and a rest. -/
theorem parseCommandFrame_split (b0 b1 b2 b3 n0 n1 n2 n3 : Byte) (p : Bytes) :
    parseCommandFrame ([b0, b1, b2, b3] ++ [n0, n1, n2, n3] ++ p) =
      if p.length < le32 n0 n1 n2 n3 then .error .tooShort
      else if le32 n0 n1 n2 n3 < p.length then .error .lengthField else .ok ([b0, b1, b2, b3], p) := by
  have e : lengthField ([b0, b1, b2, b3] ++ [n0, n1, n2, n3] ++ p) = le32 n0 n1 n2 n3 := leNat_four ..
  have l : ([b0, b1, b2, b3] ++ [n0, n1, n2, n3] ++ p).length = commandHead + p.length := by
    simp only [List.length_append, List.length_cons, List.length_nil]
    rfl
  rw [parseCommandFrame, e, l]
  simp only [Nat.add_lt_add_iff_left]
  rfl

/-- Fewer than eight bytes are no command frame. -/
theorem parseCommandFrame_short {f : Bytes} (h : f.length < 8) : parseCommandFrame f = .error .tooShort := by
  rw [parseCommandFrame, if_pos]
  exact Nat.lt_of_lt_of_le h (Nat.le_add_right 8 _)

/-- A frame whose tag has four bytes and whose payload's length fits the length field is parsed as what it was built from. -/
theorem parse_commandFrame {o p : Bytes} (ho : o.length = 4) (hp : p.length < 2 ^ 32) :
    parseCommandFrame (commandFrame o p) = .ok (o, p) := by
  obtain ⟨b0, b1, b2, b3, rfl⟩ := exists_four ho
  rw [commandFrame, LE32_eq, parseCommandFrame_split, le32_LE32 hp, if_neg (lt_irrefl _), if_neg (lt_irrefl _)]

/-- The bytes that parse are the frame of what they parse to. -/
theorem commandFrame_of_parse {f o p : Bytes} (h : parseCommandFrame f = .ok (o, p)) :
    f = commandFrame o p ∧ o.length = 4 ∧ p.length < 2 ^ 32 := by
  match f with
  | b0 :: b1 :: b2 :: b3 :: n0 :: n1 :: n2 :: n3 :: q =>
    rw [show b0 :: b1 :: b2 :: b3 :: n0 :: n1 :: n2 :: n3 :: q = [b0, b1, b2, b3] ++ [n0, n1, n2, n3] ++ q from rfl,
      parseCommandFrame_split] at h
    split at h
    · cases h
    · split at h
      · cases h
      · rename_i h1 h2
        cases h
        have e := Nat.le_antisymm (Nat.le_of_not_lt h1) (Nat.le_of_not_lt h2)
        refine ⟨?_, rfl, ?_⟩
        · rw [commandFrame, ← e, LE32_le32]
          rfl
        · rw [← e]
          exact le32_lt ..
  | [] | [_] | [_, _] | [_, _, _] | [_, _, _, _] | [_, _, _, _, _] | [_, _, _, _, _, _] | [_, _, _, _, _, _, _] =>
    rw [parseCommandFrame_short (by simp)] at h
    cases h

/-- Nine bytes are an ack, told by the status byte alone. -/
@[simp] theorem decodeAckFrame_frame (a : AckBytes) (st : Byte) :
    decodeAckFrame (a.bytes ++ [st]) = .ok (if st = 0 then .ackOk a else .ackNotAcknowledged a st) := by
  have h : Config.ackStatusOffset = a.bytes.length := a.length_eq.symm
  have e : (a.bytes ++ [st]).eraseIdx Config.ackStatusOffset = a.bytes := by
    simp [h, List.eraseIdx_append_of_length_le]
  have g : (a.bytes ++ [st])[Config.ackStatusOffset]? = some st := by simp [h]
  rw [decodeAckFrame, e, g, ByteVec.ofBytes_bytes]

/-- Bytes of any other length are no ack. -/
theorem decodeAckFrame_error {b : Bytes} (h : b.length ≠ 9) : decodeAckFrame b = .error (wrongLength 9 b) := by
  by_cases hl : b.length < 9
  · have g : b[Config.ackStatusOffset]? = none := List.getElem?_eq_none (Nat.le_of_lt_succ hl)
    rw [decodeAckFrame, g]
    rfl
  · have e : ByteVec.ofBytes Config.ackIgnoredLen (b.eraseIdx Config.ackStatusOffset) = none := by
      refine ByteVec.ofBytes_of_ne ?_
      rw [List.length_eraseIdx, if_pos (show Config.ackStatusOffset < b.length from Nat.lt_of_not_le (by omega : ¬b.length ≤ 8))]
      show b.length - 1 ≠ 8
      omega
    rw [decodeAckFrame, e]
    cases b[Config.ackStatusOffset]? <;> rfl

/-- Eight bytes are a header, told by the flag alone. -/
@[simp] theorem decodeHdr_bytes (h : Header) :
    decodeHdr h.bytes = .ok (if h.noTarget then .hdrNoTarget h else .hdrTarget h) := by
  rw [decodeHdr, ByteVec.ofBytes_bytes]

/-- Bytes of any other length are no header. -/
theorem decodeHdr_error {b : Bytes} (h : b.length ≠ 8) : decodeHdr b = .error (wrongLength 8 b) := by
  rw [decodeHdr, ByteVec.ofBytes_of_ne (n := Config.hdrLen) h]
  rfl

/-- Eight bytes are a payload. -/
@[simp] theorem decodePld_bytes (p0 p1 p2 p3 p4 p5 p6 p7 : Byte) : decodePld [p0, p1, p2, p3, p4, p5, p6, p7] =
    .ok (.pld (le16 p0 p1) (le16 p2 p3) (le16 p4 p5) (le16 p6 p7)) := rfl

/-- Four fields read from the bytes they are written as. -/
@[simp] theorem decodePld_fields (d s a m : Half) :
    decodePld (Half.toBytes d ++ Half.toBytes s ++ Half.toBytes a ++ Half.toBytes m) = .ok (.pld d s a m) := by
  simp only [Half.toBytes, List.cons_append, List.nil_append, decodePld_bytes, le16_extract]

/-- Bytes of any other length are no payload. -/
theorem decodePld_error {b : Bytes} (h : b.length ≠ 8) : decodePld b = .error (wrongLength 8 b) := if_neg h

namespace Machine

/-- The verdict on nine bytes. -/
@[simp] theorem ackVerdict_frame (a : AckBytes) (st : Byte) :
    ackVerdict (a.bytes ++ [st]) = if st = 0 then .ok else .notAcknowledged := by
  have h : Config.ackStatusOffset = a.bytes.length := a.length_eq.symm
  simp [ackVerdict, h]

/-- ACK on nine bytes. -/
@[simp] theorem decodeAck_frame (a : AckBytes) (st : Byte) :
    decodeAck (a.bytes ++ [st]) = if st = 0 then .ok else .notAcknowledged := by
  have l : (a.bytes ++ [st]).length = 9 := by simp [Config.ackIgnoredLen, Config.ackLen]
  rw [decodeAck, ackVerdict_frame, l]
  by_cases h : st = 0
  · rw [if_pos h, if_pos h]
    rfl
  · rw [if_neg h, if_neg h]
    rfl

/-- ACK on fewer. -/
theorem decodeAck_short {b : Bytes} (h : b.length < 9) :
    decodeAck b = if b.length = 0 then .timeout else .shortRead := by
  unfold decodeAck
  split <;> simp_all [Config.ackLen]

/-- The ACK outcome is `Ok` for a nine-byte ack with status zero alone. -/
theorem decodeAck_eq_ok {b : Bytes} (h : decodeAck b = .ok) : ∃ a : AckBytes, b = a.bytes ++ [0] := by
  by_cases h9 : b.length = 9
  · obtain ⟨a, st, rfl⟩ := exists_ack_of_length h9
    rw [decodeAck_frame] at h
    split at h
    · exact ⟨a, by simp_all⟩
    · cases h
  · unfold decodeAck at h
    simp only [Config.ackLen, h9, if_false] at h
    split at h
    · cases h
    · split at h <;> cases h

/-- DET on eight bytes. -/
@[simp] theorem detectionOf_bytes (N : Numerics) (p0 p1 p2 p3 p4 p5 p6 p7 : Byte) :
    detectionOf N [p0, p1, p2, p3, p4, p5, p6, p7] =
      .some (targetOf N (le16 p0 p1) (le16 p2 p3) (le16 p4 p5) (le16 p6 p7)) := rfl

/-- DET on the bytes of four fields. -/
@[simp] theorem detectionOf_fields (N : Numerics) (d s a m : Half) :
    detectionOf N (Half.toBytes d ++ Half.toBytes s ++ Half.toBytes a ++ Half.toBytes m) = .some (targetOf N d s a m) := by
  rw [detectionOf, decodePld_fields]

/-- DET on any other number of bytes. -/
theorem detectionOf_other (N : Numerics) {b : Bytes} (h : b.length ≠ 8) : detectionOf N b = .truncatedPayload := by
  rw [detectionOf, decodePld_error h]

/-- What a finite reader hands over, and where it stands afterwards. -/
theorem Reader.take_spec (r : Reader) (n : Nat) :
    (r.take n).1 = (r.bytes.drop r.pos).take n ∧
      (r.take n).2 = { r with pos := r.pos + min n (r.bytes.length - r.pos) } := by
  simp [Reader.take]

end Machine

end Sys2Proof
end

