-- ==== Sys2Proof/Laws/Ops.lean ====
section
/-! SUPPORT. One lemma for each shared operation of Machine/Ops.lean and each way it can end: the whole of what it does. -/

namespace Sys2Proof.Machine

variable {s : State}

/-! ## The primitives -/

theorem State.write_of_ok (h : s.nextReply.ioError = false) (b : Bytes) :
    s.write b = (true, { s.useReply with tx := s.tx ++ b, trace := s.trace ++ [.wrote b true] }) := by
  simp [State.write, h, State.log]

theorem State.write_of_error (h : s.nextReply.ioError = true) (b : Bytes) :
    s.write b = (false, s.useReply.log (.wrote b false)) := by
  simp [State.write, h]

theorem State.read_of_ok (h : s.nextReply.ioError = false) (n : Nat) :
    s.read n = (some ((s.rx ++ s.nextReply.arrived).take n), { s.useReply with
      rx := (s.rx ++ s.nextReply.arrived).drop n
      trace := s.trace ++ [.took n (some ((s.rx ++ s.nextReply.arrived).take n))] }) := by
  simp [State.read, h, State.log]

theorem State.read_of_error (h : s.nextReply.ioError = true) (n : Nat) :
    s.read n = (none, { s.useReply with
      rx := (s.rx ++ s.nextReply.arrived).drop s.nextReply.lost
      trace := s.trace ++ [.took n none] }) := by
  simp [State.read, h, State.log]

theorem State.setBaud_of_ok (h : s.nextReply.ioError = false) (rate : Nat) :
    s.setBaud rate = (true, { s.useReply with
      baud := some rate
      rx := s.nextReply.rewritten.getD (s.rx ++ s.nextReply.arrived)
      trace := s.trace ++ [.baudSet rate true] }) := by
  simp [State.setBaud, h, State.log]

theorem State.setBaud_of_error (h : s.nextReply.ioError = true) (rate : Nat) :
    s.setBaud rate = (false, { s.useReply with
      rx := s.nextReply.rewritten.getD (s.rx ++ s.nextReply.arrived)
      trace := s.trace ++ [.baudSet rate false] }) := by
  simp [State.setBaud, h, State.log]

theorem State.openPort_of_ok (h : s.nextReply.ioError = false) (port : Nat) :
    s.openPort port = (true, { s.useReply with
      handle := some (Config.freshHandle s.useReply.draws)
      draws := s.useReply.draws + 1
      baud := some Config.baudInit
      port := some port
      framing := serialFraming
      trace := s.trace ++ [.opened port Config.baudInit serialFraming true] }) := by
  simp [State.openPort, h, State.log]

theorem State.openPort_of_error (h : s.nextReply.ioError = true) (port : Nat) :
    s.openPort port = (false, s.useReply.log (.opened port Config.baudInit serialFraming false)) := by
  simp [State.openPort, h]

/-! ## Commands -/

theorem State.sendCommand_ok (h : s.nextReply.ioError = false) (f : Bytes) :
    s.sendCommand f = { s.useReply with tx := s.tx ++ f, trace := s.trace ++ [.wrote f true], phase := .awaitAck } := by
  simp [State.sendCommand, State.write_of_ok h, State.setPhase]

theorem State.sendCommand_error (h : s.nextReply.ioError = true) (f : Bytes) :
    s.sendCommand f = (s.useReply.log (.wrote f false)).ioFailure := by
  simp [State.sendCommand, State.write_of_error h]

/-- `GBYE` whose put succeeds: the response is taken and dropped. -/
theorem State.sayGoodbye_ok (h : s.nextReply.ioError = false) : s.sayGoodbye = ((s.write gbyeFrame).2.read 9).2 := by
  simp only [State.sayGoodbye, State.write_of_ok h]
  rfl

/-- `GBYE` whose put fails: nothing is taken. -/
theorem State.sayGoodbye_error (h : s.nextReply.ioError = true) : s.sayGoodbye = (s.write gbyeFrame).2 := by
  simp only [State.sayGoodbye, State.write_of_error h]

/-- What saying goodbye leaves unchanged, and what it puts. -/
theorem State.sayGoodbye_spec (s : State) :
    s.sayGoodbye.session = s.session ∧ s.sayGoodbye.phase = s.phase ∧ s.sayGoodbye.baud = s.baud ∧
    s.sayGoodbye.handle = s.handle ∧ s.sayGoodbye.port = s.port ∧ s.sayGoodbye.framing = s.framing ∧
    s.sayGoodbye.records = s.records ∧
    s.sayGoodbye.sessionOutcome = s.sessionOutcome ∧ (s.cancelRequested = true → s.sayGoodbye.cancelRequested = true) ∧
    s.sayGoodbye.tx = (if s.nextReply.ioError then s.tx else s.tx ++ gbyeFrame) ∧ s.sayGoodbye.reader = s.reader ∧
    s.sayGoodbye.calls = s.calls ∧ s.sayGoodbye.result = s.result ∧ s.trace <+: s.sayGoodbye.trace ∧
    s.sayGoodbye.startEvent = s.startEvent ∧ s.sayGoodbye.transportUsable = s.transportUsable ∧
    s.sayGoodbye.payloads = s.payloads := by
  have tr : s.trace <+: s.sayGoodbye.trace := by
    cases h : s.nextReply.ioError
    · rw [State.sayGoodbye_ok h]
      cases h' : (s.write gbyeFrame).2.nextReply.ioError
      · rw [State.read_of_ok h', State.write_trace, List.append_assoc]
        exact List.prefix_append _ _
      · rw [State.read_of_error h', State.write_trace, List.append_assoc]
        exact List.prefix_append _ _
    · rw [State.sayGoodbye_error h, State.write_trace]
      exact List.prefix_append _ _
  cases h : s.nextReply.ioError
  · simp_all [State.sayGoodbye_ok h]
  · simp_all [State.sayGoodbye_error h]

/-! ## The end of a session -/

/-- What the fatal transition leaves unchanged, and where it ends. -/
theorem State.raiseTransportError_spec (s : State) :
    s.raiseTransportError.session = .disconnected ∧ s.raiseTransportError.phase = .ready ∧
    s.raiseTransportError.baud = s.baud ∧ s.raiseTransportError.handle = none ∧
    s.raiseTransportError.port = s.port ∧ s.raiseTransportError.framing = s.framing ∧ s.raiseTransportError.records = s.records ∧
    s.raiseTransportError.sessionOutcome = some .transportError ∧
    (s.cancelRequested = true → s.raiseTransportError.cancelRequested = true) ∧
    s.raiseTransportError.tx =
      (if s.transportUsable && !s.nextReply.ioError then s.tx ++ gbyeFrame else s.tx) ∧
    s.raiseTransportError.reader = s.reader ∧ s.raiseTransportError.calls = s.calls ∧
    s.raiseTransportError.result = s.result ∧ s.trace <+: s.raiseTransportError.trace ∧
    s.raiseTransportError.trace.getLast? = some (.handedOver s.records .transportError) ∧
    s.raiseTransportError.startEvent = s.startEvent ∧
    s.raiseTransportError.transportUsable = s.transportUsable ∧ s.raiseTransportError.payloads = s.payloads := by
  obtain ⟨h1, h2, h3, h4, h5, h6, h7, h8, h9, h10, h11, h12, h13, h14, h15, h16, h17⟩ := s.sayGoodbye_spec
  unfold State.raiseTransportError
  cases hu : s.transportUsable
  · simp +contextual [hu]
  · simp_all only [if_true, State.finish_session, State.finish_phase, State.finish_baud, State.finish_handle,
      State.finish_port, State.finish_framing, State.finish_records, State.finish_sessionOutcome,
      State.finish_cancelRequested, State.finish_tx,
      State.finish_reader, State.finish_calls, State.finish_result, State.finish_trace, State.finish_startEvent,
      State.finish_transportUsable, State.finish_payloads, State.closePort_baud, State.closePort_handle,
      State.closePort_port, State.closePort_framing, State.closePort_records, State.closePort_cancelRequested, State.closePort_tx,
      State.closePort_reader, State.closePort_calls, State.closePort_result, State.closePort_trace,
      State.closePort_startEvent, State.closePort_transportUsable, State.closePort_payloads, true_and]
    refine ⟨fun _ => Bool.true_or _, by cases s.nextReply.ioError <;> rfl, ?_, by simp⟩
    rw [List.append_assoc]
    exact h14.trans (List.prefix_append _ _)

/-! ## The host's reactions -/

theorem State.ioFailure_fatal (h : s.session = .initializing ∨ s.session = .configuringSpeed ∨
    s.session = .configuringRange ∨ s.session = .streaming) : s.ioFailure = s.raiseTransportError := by
  rcases h with h | h | h | h <;> simp [State.ioFailure, h]

theorem State.onAck_initializing_ok (h : s.session = .initializing) : s.onAck .ok = s.raiseBaud := by
  simp [State.onAck, h, AckOutcome.failed]

theorem State.onAck_initializing_failed (h : s.session = .initializing) {o : AckOutcome} (ho : o ≠ .ok) :
    s.onAck o = s.failInitialization := by
  simp [State.onAck, h, AckOutcome.failed, ho]

theorem State.onAck_configuringSpeed (h : s.session = .configuringSpeed) (o : AckOutcome) :
    s.onAck o = { s with phase := .ready, trace := s.trace ++ if o = .ok then [] else [.warned .rspi (.ack o)] } := by
  by_cases ho : o = .ok <;>
    simp [State.onAck, h, State.warnUnlessOk, AckOutcome.failed, ho, State.setPhase, State.log]

theorem State.onAck_configuringRange (h : s.session = .configuringRange) (o : AckOutcome) :
    s.onAck o = { s with
      phase := .ready, session := .streaming, trace := s.trace ++ if o = .ok then [] else [.warned .rrai (.ack o)] } := by
  by_cases ho : o = .ok <;>
    simp [State.onAck, h, State.warnUnlessOk, AckOutcome.failed, ho, State.setPhase, State.log, State.enter]

theorem State.onAck_streaming (h : s.session = .streaming) (o : AckOutcome) :
    s.onAck o = { s with
      phase := if o = .ok then .awaitHeader else .ready
      trace := s.trace ++ if o = .ok then [] else [.warned .gnfd (.ack o)] } := by
  by_cases ho : o = .ok <;>
    simp [State.onAck, h, State.warnUnlessOk, AckOutcome.failed, ho, State.setPhase, State.log]

theorem State.raiseBaud_ok (h : s.nextReply.ioError = false) : s.raiseBaud = { s.useReply with
    phase := .ready
    baud := some Config.baudHigh
    rx := s.nextReply.rewritten.getD (s.rx ++ s.nextReply.arrived)
    trace := s.trace ++ [.settled 75, .baudSet Config.baudHigh true] } := by
  have h' : (s.log (.settled Config.settleDelayMs)).nextReply.ioError = false := h
  simp only [State.raiseBaud, State.setBaud_of_ok h', State.setPhase, State.log_trace, List.append_assoc]
  rfl

theorem State.raiseBaud_error (h : s.nextReply.ioError = true) :
    s.raiseBaud = ((s.log (.settled 75)).setBaud Config.baudHigh).2.ioFailure := by
  have h' : (s.log (.settled 75)).nextReply.ioError = true := h
  simp only [State.raiseBaud, Config.settleDelayMs, State.setBaud_of_error h']

theorem State.judgeAck_awaited (h : s.phase = .awaitAck) (b : Bytes) :
    s.judgeAck b = (s.answer (some (.ack (decodeAck b)))).onAck (decodeAck b) := by
  simp [State.judgeAck, h]

theorem State.judgeAck_unawaited (h : s.phase ≠ .awaitAck) (b : Bytes) :
    s.judgeAck b = s.answer (some (.ack (decodeAck b))) := by
  simp [State.judgeAck, h]

/-- The end of a cycle while streaming. -/
theorem State.onDecoded_streaming (h : s.session = .streaming) (r : DetResult) : s.onDecoded r =
    match r with
    | .none => { s with phase := .ready, trace := s.trace ++ [.handedNoTarget] }
    | .some t => { s with
        phase := .ready
        records := s.records ++ [⟨t, Config.timestamp s.draws⟩]
        draws := s.draws + 1
        trace := s.trace ++ [.handedTarget ⟨t, Config.timestamp s.draws⟩] }
    | .truncatedPayload => { s with phase := .ready, trace := s.trace ++ [.warned .payload .truncatedPayload] } := by
  cases r <;> simp [State.onDecoded, h, State.log, State.setPhase]

theorem State.deliver_awaited {p : Phase} (h : s.phase = p) (r : DetResult) :
    s.deliver p r = (s.answer (some (.det r))).onDecoded r := by
  simp [State.deliver, h]

theorem State.deliver_unawaited {p : Phase} (h : s.phase ≠ p) (r : DetResult) :
    s.deliver p r = s.answer (some (.det r)) := by
  simp [State.deliver, h]

theorem State.testHeader_noTarget {h : Header} (hf : h.noTarget = true) : s.testHeader h = s.deliver .awaitHeader .none := by
  simp [State.testHeader, hf]

theorem State.testHeader_target {h : Header} (hf : h.noTarget = false) :
    s.testHeader h = { s with result := none, phase := if s.phase = .awaitHeader then .awaitPayload else s.phase } := by
  by_cases hp : s.phase = .awaitHeader <;> simp [State.testHeader, hf, hp, State.setPhase, State.answer]

end Sys2Proof.Machine
end

