-- ==== Sys2Proof/Laws/PerInstr.lean ====
section
/-! SUPPORT. Statements made for each instruction, one lemma for each constructor. `EncodedLength`: exactly the frames have an
encoding, and it has 8 to 16 bytes (spec/30_encoding.md R50, R68, R69). -/

namespace Sys2Proof.Laws.EncodedLength

/-- Exactly the frames have an encoding, of 8 to 16 bytes. -/
def Statement (i : Instr) : Prop :=
  (encode i = none ↔ i.format = none) ∧ ∀ b, encode i = some b → 8 ≤ b.length ∧ b.length ≤ 16

/-- A frame with an encoding of a known length. -/
theorem of_some {i : Instr} {f : Format} {b : Bytes} (hf : i.format = some f) (he : encode i = some b)
    (h1 : 8 ≤ b.length) (h2 : b.length ≤ 16) : Statement i := by
  refine ⟨by simp [hf, he], fun c hc => ?_⟩
  rw [he] at hc
  cases hc
  exact ⟨h1, h2⟩

/-- An operation without one. -/
theorem of_none {i : Instr} (hf : i.format = none) (he : encode i = none) : Statement i :=
  ⟨by simp [hf, he], fun b hb => by simp [he] at hb⟩

/-- A command whose payload has at most eight bytes. -/
theorem of_command {i : Instr} {o p : Bytes} (hf : i.format = some .cmd) (he : encode i = some (commandFrame o p))
    (ho : o.length = 4) (hp : p.length ≤ 8) : Statement i :=
  of_some hf he (by rw [commandFrame_length]; omega) (by rw [commandFrame_length]; omega)

theorem init (p : Value) : Statement (.init p) := of_command rfl rfl rfl (by simp; decide)
theorem rspi (p : Value) : Statement (.rspi p) := of_command rfl rfl rfl (by simp; decide)
theorem rrai (p : Value) : Statement (.rrai p) := of_command rfl rfl rfl (by simp; decide)
theorem gnfd (g : Descriptor) : Statement (.gnfd g) := of_command rfl rfl rfl (by simp; decide)
theorem gbye : Statement .gbye := of_command rfl rfl rfl (by simp)
theorem ackOk (a : AckBytes) : Statement (.ackOk a) :=
  of_some rfl rfl (by simp; decide) (by simp; decide)
theorem ackNotAcknowledged (a : AckBytes) (status : Byte) : Statement (.ackNotAcknowledged a status) :=
  of_some rfl rfl (by simp; decide) (by simp; decide)
theorem hdrNoTarget (h : Header) : Statement (.hdrNoTarget h) := of_some rfl rfl (by simp; decide) (by simp; decide)
theorem hdrTarget (h : Header) : Statement (.hdrTarget h) := of_some rfl rfl (by simp; decide) (by simp; decide)
theorem pld (distance speed angle magnitude : Half) : Statement (.pld distance speed angle magnitude) :=
  of_some rfl rfl (by simp) (by simp)
theorem encodeCommand (opcode payload : Bytes) : Statement (.encodeCommand opcode payload) := of_none rfl rfl
theorem decodeAck (bytes : Bytes) : Statement (.decodeAck bytes) := of_none rfl rfl
theorem decodeDetection (header : Header) (source : Source) : Statement (.decodeDetection header source) := of_none rfl rfl

end Sys2Proof.Laws.EncodedLength
end

