-- ==== Sys2Proof/Laws/Series.lean ====
section
/-! SUPPORT. The series of Machine/Numerics.lean against the real sine and cosine: within `seriesEps` of them in the range
of 42_decode_detection.md R110. -/

namespace Sys2Proof.Numerics

/-- The range of R110, in figures. -/
theorem sincosRange_eq : sincosRange = 572 / 100 := by norm_num [sincosRange, Config.angleDivisor]

/-- In that range thirty terms are summed. -/
theorem seriesTerms_eq : seriesTerms = 30 := by
  have h : ⌈(572 / 100 : ℚ)⌉₊ = 6 := by rw [Nat.ceil_eq_iff (by norm_num)]; norm_num
  rw [seriesTerms, sincosRange_eq, h]

/-- The exponential series of `x * I`, even and odd terms apart. -/
theorem sum_exp_eq (x : ℝ) (n : Nat) :
    ∑ m ∈ Finset.range (2 * n), ((x : ℂ) * Complex.I) ^ m / (m.factorial : ℂ) =
      ((∑ k ∈ Finset.range n, (-1) ^ k * x ^ (2 * k) / (2 * k).factorial : ℝ) : ℂ) +
        ((∑ k ∈ Finset.range n, (-1) ^ k * x ^ (2 * k + 1) / (2 * k + 1).factorial : ℝ) : ℂ) * Complex.I := by
  induction n with
  | zero => simp
  | succ n ih =>
    have e : ((x : ℂ) * Complex.I) ^ (2 * n) = (-1) ^ n * (x : ℂ) ^ (2 * n) := by
      rw [mul_pow, pow_mul Complex.I, Complex.I_sq, mul_comm]
    rw [show 2 * (n + 1) = 2 * n + 1 + 1 by ring, Finset.sum_range_succ, Finset.sum_range_succ, ih, Finset.sum_range_succ,
      Finset.sum_range_succ, pow_succ ((x : ℂ) * Complex.I), e]
    push_cast
    ring

/-- What sixty terms of the exponential series leave out. -/
theorem exp_close {x : ℝ} (h : |x| ≤ 572 / 100) :
    ‖Complex.exp (x * Complex.I) - ∑ m ∈ Finset.range (2 * 30), ((x : ℂ) * Complex.I) ^ m / (m.factorial : ℂ)‖ ≤
      1 / 2 ^ 100 := by
  have n : ‖(x : ℂ) * Complex.I‖ = |x| := by simp
  refine (Complex.exp_bound' (x := (x : ℂ) * Complex.I) (n := 2 * 30) ?_).trans ?_
  · rw [n]
    push_cast
    rw [div_le_iff₀ (by norm_num)]
    linarith
  · rw [n]
    calc |x| ^ (2 * 30) / ((2 * 30).factorial : ℝ) * 2 ≤ (572 / 100) ^ (2 * 30) / ((2 * 30).factorial : ℝ) * 2 := by gcongr
      _ ≤ 1 / 2 ^ 100 := by
        rw [div_mul_eq_mul_div, div_le_div_iff₀ (by positivity) (by positivity)]
        norm_num [Nat.factorial]

/-- Both series at once: what they leave out, as one complex number. -/
theorem series_close {x : ℝ} (h : |x| ≤ 572 / 100) :
    ‖((Real.cos x - ∑ k ∈ Finset.range 30, (-1) ^ k * x ^ (2 * k) / (2 * k).factorial : ℝ) : ℂ) +
      ((Real.sin x - ∑ k ∈ Finset.range 30, (-1) ^ k * x ^ (2 * k + 1) / (2 * k + 1).factorial : ℝ) : ℂ) * Complex.I‖ ≤
        1 / 2 ^ 100 := by
  refine Eq.trans_le (congrArg norm ?_) (exp_close h)
  rw [sum_exp_eq, Complex.exp_mul_I, ← Complex.ofReal_cos, ← Complex.ofReal_sin, Complex.ofReal_sub, Complex.ofReal_sub]
  ring

theorem range_real {x : ℚ} (h : |x| ≤ sincosRange) : |(x : ℝ)| ≤ 572 / 100 := by
  have : ((|x| : ℚ) : ℝ) ≤ ((sincosRange : ℚ) : ℝ) := by exact_mod_cast h
  simpa [sincosRange_eq] using this

/-- The sine's series is as close as `seriesEps` says. -/
theorem sinSeries_close {x : ℚ} (h : |x| ≤ sincosRange) : |(sinSeries x : ℝ) - Real.sin x| ≤ (seriesEps : ℝ) := by
  have b := (Complex.abs_im_le_norm _).trans (series_close (range_real h))
  simp only [Complex.add_im, Complex.ofReal_im, Complex.mul_im, Complex.ofReal_re, Complex.I_im, Complex.I_re, mul_one,
    mul_zero, zero_add, add_zero] at b
  rw [abs_sub_comm]
  simpa [sinSeries, seriesTerms_eq, seriesEps] using b

/-- The cosine's series is as close as `seriesEps` says. -/
theorem cosSeries_close {x : ℚ} (h : |x| ≤ sincosRange) : |(cosSeries x : ℝ) - Real.cos x| ≤ (seriesEps : ℝ) := by
  have b := (Complex.abs_re_le_norm _).trans (series_close (range_real h))
  simp only [Complex.add_re, Complex.ofReal_im, Complex.mul_re, Complex.ofReal_re, Complex.I_im, Complex.I_re, mul_one,
    mul_zero, sub_zero, add_zero] at b
  rw [abs_sub_comm]
  simpa [cosSeries, seriesTerms_eq, seriesEps] using b

end Sys2Proof.Numerics
end

