-- ==== Sys2Proof/Laws/Step.lean ====
section
/-! SUPPORT. What a step finds, case by case: an operation presented to the block, the host between exchanges, or a take that
fails, is short, or gives a frame. -/

namespace Sys2Proof.Machine

variable {s : State}

theorem step_of_fetch_run {s' : State} {i : Instr} (h : fetch s = .run i s') : step s = exec i s' := by
  simp [step, h]

theorem step_of_fetch_host {s' : State} (h : fetch s = .host s') : step s = .next s' := by
  simp [step, h]

theorem fetch_idle (h : s.calls = []) : fetch s = fetchSession s := by
  simp [fetch, h]

theorem fetch_ready (h : s.calls = []) (hp : s.phase = .ready) : fetch s = fetchReady s := by
  rw [fetch_idle h, fetchSession, hp]

theorem fetch_awaitAck (h : s.calls = []) (hp : s.phase = .awaitAck) :
    fetch s = fetchFrame s .ack 9 fun bytes s' => s'.judgeAck bytes := by
  rw [fetch_idle h, fetchSession, hp]
  rfl

theorem fetch_awaitHeader (h : s.calls = []) (hp : s.phase = .awaitHeader) :
    fetch s = fetchFrame s .hdr 8 fun bytes s' => s'.onShortHeader bytes := by
  rw [fetch_idle h, fetchSession, hp]
  rfl

theorem fetch_awaitPayload (h : s.calls = []) (hp : s.phase = .awaitPayload) :
    fetch s = fetchFrame s .pld 8 fun bytes s' => s'.deliver .awaitPayload (detectionOf Config.numerics bytes) := by
  rw [fetch_idle h, fetchSession, hp]
  rfl

variable {f : Format} {n : Nat} {short : Bytes → State → State}

theorem fetchFrame_closed (h : s.handle = none) : fetchFrame s f n short = .broken .transportNotOpen := by
  simp [fetchFrame, h]

theorem fetchFrame_failed (h : s.handle ≠ none) (hr : s.nextReply.ioError = true) :
    fetchFrame s f n short = .host ((s.read n).2.answer none).ioFailure := by
  rw [fetchFrame, if_neg (by simpa using h), State.read_of_error hr]

theorem fetchFrame_frame (h : s.handle ≠ none) (hr : s.nextReply.ioError = false) {i : Instr}
    (hd : decodeFrame f ((s.rx ++ s.nextReply.arrived).take n) = .ok i) :
    fetchFrame s f n short = .run i (s.read n).2 := by
  rw [fetchFrame, if_neg (by simpa using h), State.read_of_ok hr]
  simp only [hd]

theorem fetchFrame_short (h : s.handle ≠ none) (hr : s.nextReply.ioError = false) {e : DecodeError}
    (hd : decodeFrame f ((s.rx ++ s.nextReply.arrived).take n) = .error e) :
    fetchFrame s f n short = .host (short ((s.rx ++ s.nextReply.arrived).take n) (s.read n).2) := by
  rw [fetchFrame, if_neg (by simpa using h), State.read_of_ok hr]
  simp only [hd]

end Sys2Proof.Machine
end

