-- ==== Sys2Proof/Tests/Slice0.lean ====
section
/-! SUPPORT. The model's own tests: well-formedness, decoding from words written out from the spec's encodings, worked examples
of spec/95_test_vectors.md, and for each obligation with hypotheses a witness that meets them. -/

namespace Sys2Proof.Tests

open Sys2Proof Sys2Proof.Machine Sys2Proof.Safety

/-! ## Well-formedness: an ill-formed term for each check -/

theorem test_wf_status_zero_is_no_nack : (Instr.ackNotAcknowledged ⟨[0, 0, 0, 0, 0, 0, 0, 0], rfl⟩ 0).wellFormed = false := by decide
theorem test_wf_flag_two_is_a_target : (Instr.hdrNoTarget ⟨[0, 0, 0, 0, 2, 0, 0, 0], rfl⟩).wellFormed = false := by decide
theorem test_wf_flag_one_is_no_target : (Instr.hdrTarget ⟨[0, 0, 0, 0, 1, 0, 0, 0], rfl⟩).wellFormed = false := by decide
theorem test_wf_payload_over_the_bound :
    (Instr.encodeCommand [] (List.replicate (Config.payloadMax + 1) 0)).wellFormed = false := by
  simp only [Instr.wellFormed, List.length_replicate]
  exact decide_eq_false (by omega)
theorem test_wf_accepts : (Instr.ackNotAcknowledged ⟨[0, 0, 0, 0, 0, 0, 0, 0], rfl⟩ 255).wellFormed = true ∧
    (Instr.hdrNoTarget ⟨[9, 9, 9, 9, 1, 9, 9, 9], rfl⟩).wellFormed = true ∧
    (Instr.hdrTarget ⟨[0, 0, 0, 0, 255, 0, 0, 0], rfl⟩).wellFormed = true := by decide

/-! ## Decoding, the bytes written out from 30_encoding.md and 43_command_set.md -/

/-- `INIT 3`, V-ENC-1. -/
theorem test_decode_init : decodeFrame .cmd [0x49, 0x4E, 0x49, 0x54, 4, 0, 0, 0, 3, 0, 0, 0] = .ok (.init ⟨[3, 0, 0, 0], rfl⟩) := by rfl
/-- `RSPI 1`, V-ENC-2. -/
theorem test_decode_rspi : decodeFrame .cmd [0x52, 0x53, 0x50, 0x49, 4, 0, 0, 0, 1, 0, 0, 0] = .ok (.rspi ⟨[1, 0, 0, 0], rfl⟩) := by rfl
/-- `RRAI 1`, V-ENC-3. -/
theorem test_decode_rrai : decodeFrame .cmd [0x52, 0x52, 0x41, 0x49, 4, 0, 0, 0, 1, 0, 0, 0] = .ok (.rrai ⟨[1, 0, 0, 0], rfl⟩) := by rfl
/-- `GNFD`, V-ENC-4. -/
theorem test_decode_gnfd : decodeFrame .cmd
    [0x47, 0x4E, 0x46, 0x44, 8, 0, 0, 0, 0xA0, 0xA1, 0xA2, 0xA3, 0xA4, 0xA5, 0xA6, 0xA7] =
      .ok (.gnfd ⟨[0xA0, 0xA1, 0xA2, 0xA3, 0xA4, 0xA5, 0xA6, 0xA7], rfl⟩) := by rfl
/-- `GBYE`, V-ENC-5. -/
theorem test_decode_gbye : decodeFrame .cmd [0x47, 0x42, 0x59, 0x45, 0, 0, 0, 0] = .ok .gbye := by rfl
/-- V-ACK-5. -/
theorem test_decode_ack_ok : decodeFrame .ack [0x11, 0x22, 0x33, 0x44, 0x55, 0x66, 0x77, 0x88, 0] =
    .ok (.ackOk ⟨[0x11, 0x22, 0x33, 0x44, 0x55, 0x66, 0x77, 0x88], rfl⟩) := by rfl
/-- V-ACK-8. -/
theorem test_decode_ack_nack : decodeFrame .ack [0, 0, 0, 0, 0, 0, 0, 0, 0x80] =
    .ok (.ackNotAcknowledged ⟨[0, 0, 0, 0, 0, 0, 0, 0], rfl⟩ 0x80) := by rfl
/-- V-HDR-3 and V-HDR-9. -/
theorem test_decode_hdr_no_target :
    decodeFrame .hdr [0xFF, 0xFF, 0xFF, 0xFF, 1, 0xFF, 0xFF, 0xFF] =
      .ok (.hdrNoTarget ⟨[0xFF, 0xFF, 0xFF, 0xFF, 1, 0xFF, 0xFF, 0xFF], rfl⟩) ∧
    decodeFrame .hdr [2, 2, 2, 2, 0, 2, 2, 2] = .ok (.hdrNoTarget ⟨[2, 2, 2, 2, 0, 2, 2, 2], rfl⟩) := ⟨rfl, rfl⟩
/-- V-HDR-4 and V-HDR-8. -/
theorem test_decode_hdr_target :
    decodeFrame .hdr [0, 0, 0, 0, 2, 0, 0, 0] = .ok (.hdrTarget ⟨[0, 0, 0, 0, 2, 0, 0, 0], rfl⟩) ∧
    decodeFrame .hdr [0, 0, 0, 0, 0x80, 0, 0, 0] = .ok (.hdrTarget ⟨[0, 0, 0, 0, 0x80, 0, 0, 0], rfl⟩) := ⟨rfl, rfl⟩
/-- V-DET-15: every byte distinct. -/
theorem test_decode_pld : decodeFrame .pld [0x34, 0x12, 0x78, 0x56, 0xBC, 0x9A, 0xF0, 0xDE] =
    .ok (.pld 4660 22136 0x9ABC 57072) := by rfl
/-- Rejections by name (30_encoding.md R71; 43_command_set.md R127). -/
theorem test_decode_rejects :
    decodeFrame .cmd [0x49, 0x4E, 0x49, 0x54, 4, 0, 0, 0, 3, 0, 0] = .error .tooShort ∧
    decodeFrame .cmd [0x49, 0x4E, 0x49, 0x54, 4, 0, 0, 0, 3, 0, 0, 0, 0] = .error .lengthField ∧
    decodeFrame .cmd [0x49, 0x4E, 0x49, 0x54, 0, 0, 0, 0] = .error .payloadLength ∧
    decodeFrame .cmd [0x49, 0x4E, 0x49, 0x55, 0, 0, 0, 0] = .error .unknownTag ∧
    decodeFrame .ack [0, 0, 0, 0, 0, 0, 0, 0] = .error .tooShort ∧
    decodeFrame .hdr [0, 0, 0, 0, 0, 0, 0, 0, 0] = .error .tooLong ∧
    decodeFrame .pld [0x64, 0, 0xCE, 0xFF, 0x64, 0, 0x0A] = .error .tooShort := ⟨rfl, rfl, rfl, rfl, rfl, rfl, rfl⟩
/-- The encoder writes the same bytes. -/
theorem test_encode_frames :
    encode (.init ⟨[3, 0, 0, 0], rfl⟩) = some [0x49, 0x4E, 0x49, 0x54, 4, 0, 0, 0, 3, 0, 0, 0] ∧
    encode (.ackNotAcknowledged ⟨[1, 2, 3, 4, 5, 6, 7, 8], rfl⟩ 9) = some [1, 2, 3, 4, 5, 6, 7, 8, 9] ∧
    encode (.hdrTarget ⟨[0, 0, 0, 0, 2, 0, 0, 0], rfl⟩) = some [0, 0, 0, 0, 2, 0, 0, 0] ∧
    encode (.pld 4660 22136 0x9ABC 57072) = some [0x34, 0x12, 0x78, 0x56, 0xBC, 0x9A, 0xF0, 0xDE] := by decide
/-- The table's words, first byte in bits 7 to 0 (30_encoding.md R74). -/
theorem test_table_words :
    decodeTableWord 64 0x0000000454494E49 = some (.init ⟨[0, 0, 0, 0], rfl⟩) ∧
    decodeTableWord 64 0x0000000449505352 = some (.rspi ⟨[0, 0, 0, 0], rfl⟩) ∧
    decodeTableWord 96 0x000000010000000449415252 = some (.rrai ⟨[1, 0, 0, 0], rfl⟩) ∧
    decodeTableWord 64 0x0000000844464E47 = some (.gnfd ⟨[0, 0, 0, 0, 0, 0, 0, 0], rfl⟩) ∧
    decodeTableWord 64 0x0000000045594247 = some .gbye ∧
    decodeTableWord 72 0 = some (.ackOk ⟨[0, 0, 0, 0, 0, 0, 0, 0], rfl⟩) ∧
    decodeTableWord 72 0x070000000000000000 = some (.ackNotAcknowledged ⟨[0, 0, 0, 0, 0, 0, 0, 0], rfl⟩ 7) ∧
    decodeTableWord 64 0x0000000100000000 = some (.hdrNoTarget ⟨[0, 0, 0, 0, 1, 0, 0, 0], rfl⟩) ∧
    decodeTableWord 64 0x0000000200000000 = some (.hdrTarget ⟨[0, 0, 0, 0, 2, 0, 0, 0], rfl⟩) ∧
    decodeTableWord 56 0 = none := by decide
/-- A word placed at reset is what the first step runs. -/
theorem test_word_runs_from_reset :
    (∃ t, step (State.reset.withFetchWord 64 0x0000000454494E49) = .next t ∧ t.session = .initializing ∧
      t.tx = [0x49, 0x4E, 0x49, 0x54, 4, 0, 0, 0, 0, 0, 0, 0]) ∧
    (∃ t, step (State.reset.withFetchWord 64 0x0000000045594247) = .next t ∧ t.session = .shuttingDown) ∧
    ∃ t, step (State.reset.withFetchWord 64 0x0000000200000000) = .next t ∧ t.phase = .awaitPayload :=
  ⟨⟨_, rfl, rfl, rfl⟩, ⟨_, rfl, rfl⟩, ⟨_, rfl, rfl⟩⟩

/-! ## The units, on the vectors of 95_test_vectors.md -/

/-- V-ENC-6 and V-ENC-9: no validation of the tag, and the length field in little-endian order. -/
theorem test_encode_command : encodeCommand [0x00, 0xFF, 0x80, 0x7F] [0xAA] =
      .frame [0x00, 0xFF, 0x80, 0x7F, 1, 0, 0, 0, 0xAA] ∧
    encodeCommand [0x47, 0x42, 0x59, 0x45] (List.replicate 256 0x55) =
      .frame ([0x47, 0x42, 0x59, 0x45, 0, 1, 0, 0] ++ List.replicate 256 0x55) := by decide +kernel
/-- V-ENC-13 to V-ENC-15. -/
theorem test_encode_command_invalid : encodeCommand [0x49, 0x4E, 0x49] [3, 0, 0, 0] = .invalidOpcode ∧
    encodeCommand [] [] = .invalidOpcode ∧ encodeCommand [0x49, 0x4E, 0x49, 0x54, 0] [] = .invalidOpcode := by decide
/-- V-ACK-1 to V-ACK-9. -/
theorem test_decode_ack : decodeAck [] = .timeout ∧ decodeAck [0] = .shortRead ∧
    decodeAck [0, 0, 0, 0, 0, 0, 0, 0] = .shortRead ∧ decodeAck [0xFF, 0xFF, 0xFF, 0xFF, 0xFF, 0xFF, 0xFF, 0xFF, 0] = .ok ∧
    decodeAck [0, 0, 0, 0, 0, 0, 0, 0, 1] = .notAcknowledged := by decide
/-- V-ACK-11 to V-ACK-13. -/
theorem test_decode_ack_excess : decodeAck [0, 0, 0, 0, 0, 0, 0, 0, 0, 1] = .excessBytes .ok ∧
    decodeAck [0, 0, 0, 0, 0, 0, 0, 0, 5, 0] = .excessBytes .notAcknowledged ∧
    decodeAck [0x49, 0x4E, 0x49, 0x54, 4, 0, 0, 0, 3, 0, 0, 0] = .excessBytes .notAcknowledged := by decide

/-- The four direct fields of a payload. -/
def directFields (p : Bytes) : List F64 :=
  match detectionOf Config.numerics p with
  | .some t => [t.distanceCm, t.speedKmh, t.angleDeg, t.magnitude]
  | _ => []

/-- V-DET-1, V-DET-3, V-DET-4 (integers: 100.0, 10.0, 65535.0). -/
theorem test_pld_extremes :
    directFields [0x64, 0, 0xCE, 0xFF, 0x64, 0, 0x0A, 0] =
      [0x4059000000000000, 0xBFE0000000000000, 0x3FF0000000000000, 0x4024000000000000] ∧
    directFields [0xFF, 0xFF, 0xFF, 0x7F, 0xFF, 0x7F, 0xFF, 0xFF] =
      [0x40EFFFE000000000, 0x40747AB851EB851F, 0x40747AB851EB851F, 0x40EFFFE000000000] ∧
    directFields [0xFF, 0xFF, 0x00, 0x80, 0x00, 0x80, 0xFF, 0xFF] =
      [0x40EFFFE000000000, 0xC0747AE147AE147B, 0xC0747AE147AE147B, 0x40EFFFE000000000] := by decide +kernel
/-- V-DET-13 (a division, not a multiplication by 0.01) and V-DET-15 (every byte distinct). -/
theorem test_pld_order :
    directFields [0x0A, 0, 0x23, 0, 0x09, 0, 0x02, 0] =
      [0x4024000000000000, 0x3FD6666666666666, 0x3FB70A3D70A3D70A, 0x4000000000000000] ∧
    directFields [0x34, 0x12, 0x78, 0x56, 0xBC, 0x9A, 0xF0, 0xDE] =
      [0x40B2340000000000, 0x406BAB851EB851EC, 0xC07033D70A3D70A4, 0x40EBDE0000000000] := by decide +kernel
/-- The default `RADIANS` on the angles of V-DET-1 (42_decode_detection.md R119), V-DET-3, V-DET-4, V-DET-13, V-DET-15. -/
theorem test_default_radians :
    Numerics.defaultRadians (angleField 100) = 0x3F91DF46A2529D39 ∧
    Numerics.defaultRadians (angleField 32767) = 0x4016E02CA8AAAED2 ∧
    Numerics.defaultRadians (angleField 0x8000) = 0xC016E05A695F8191 ∧
    Numerics.defaultRadians (angleField 9) = 0x3F59BC65B68B71C2 ∧
    Numerics.defaultRadians (angleField 0x9ABC) = 0xC012192E872D56F9 := by decide +kernel
/-- V-DET-2: the position of the all-zero payload is `(-0.0, +0.0)`. -/
theorem test_zero_payload_position :
    ∃ t, detectionOf Config.numerics [0, 0, 0, 0, 0, 0, 0, 0] = .some t ∧ t.xCm = 0x8000000000000000 ∧ t.yCm = 0 :=
  ⟨_, rfl, by decide +kernel, by decide +kernel⟩

/-! ## A small state to run one step from -/

/-- A streaming session between cycles; the next calls of primitives all succeed and bring nothing. -/
def base : State where
  session := .streaming
  phase := .ready
  baud := some Config.baudHigh
  handle := some 7
  port := some 3
  framing := serialFraming
  records := []
  sessionOutcome := none
  cancelRequested := false
  tx := []
  rx := []
  reader := ⟨[0x64, 0, 0xCE, 0xFF, 0x64, 0, 0x0A, 0], 0⟩
  calls := []
  result := none
  trace := []
  startEvent := some 3
  replies := [.quiet, .quiet, .quiet, .quiet]
  transportUsable := true
  draws := 0
  payloads := ⟨⟨[3, 0, 0, 0], rfl⟩, ⟨[1, 0, 0, 0], rfl⟩, ⟨[1, 0, 0, 0], rfl⟩, ⟨[0xA0, 0xA1, 0xA2, 0xA3, 0xA4, 0xA5, 0xA6, 0xA7], rfl⟩⟩

/-- `base` at another place. -/
def at_ (st : SessionState) (p : Phase) (rx : Bytes) : State := { base with session := st, phase := p, rx := rx }

/-- A session not yet started. -/
def fresh : State := { at_ .disconnected .ready [] with handle := none, baud := none, port := none }

/-- A session that has ended. -/
def ended : State := { at_ .disconnected .ready [] with handle := none, sessionOutcome := some .normal, cancelRequested := true }

/-- A reply that fails. -/
def failing : Reply := ⟨true, [], false, none, 0⟩

/-- A state whose next call fails. -/
def fails (s : State) : State := { s with replies := [failing, .quiet, .quiet, .quiet] }

/-- A state whose next call succeeds and the one after it fails. -/
def failsSecond (s : State) : State := { s with replies := [.quiet, failing, .quiet, .quiet] }

def ackOkBytes : Bytes := [0, 0, 0, 0, 0, 0, 0, 0, 0]
def nackBytes : Bytes := [0, 0, 0, 0, 0, 0, 0, 0, 7]
def targetHeader : Header := ⟨[0, 0, 0, 0, 2, 0, 0, 0], rfl⟩
def noTargetHeader : Header := ⟨[0, 0, 0, 0, 1, 0, 0, 0], rfl⟩

/-! ## The exchanges of 95_test_vectors.md section 2.4, one step each -/

/-- V-CMD-1: `INIT` acknowledged: 75 ms, then the high rate. -/
theorem test_init_ack_ok : ∃ t, step (at_ .initializing .awaitAck ackOkBytes) = .next t ∧ t.session = .initializing ∧
    t.trace = [.took 9 (some ackOkBytes), .settled 75, .baudSet Config.baudHigh true] := ⟨_, rfl, rfl, rfl⟩
/-- V-CMD-2: `INIT` times out: fatal, nothing put. -/
theorem test_init_timeout : ∃ t, step (at_ .initializing .awaitAck []) = .next t ∧ t.session = .disconnected ∧
    t.sessionOutcome = some .initializationFailed ∧ t.tx = [] ∧ t.handle = none := ⟨_, rfl, rfl, rfl, rfl, rfl⟩
/-- V-CMD-5: `RSPI` times out: a warning. -/
theorem test_rspi_timeout : ∃ t, step (at_ .configuringSpeed .awaitAck []) = .next t ∧ t.session = .configuringSpeed ∧
    t.trace.getLast? = some (.warned .rspi (.ack .timeout)) := ⟨_, rfl, rfl, rfl⟩
/-- V-CMD-6: `RRAI` not acknowledged: a warning, and `Streaming` all the same. -/
theorem test_rrai_nack : ∃ t, step (at_ .configuringRange .awaitAck nackBytes) = .next t ∧ t.session = .streaming ∧
    t.trace.getLast? = some (.warned .rrai (.ack .notAcknowledged)) := ⟨_, rfl, rfl, rfl⟩
/-- V-CMD-7 and V-CMD-8. -/
theorem test_gnfd_ack : (∃ t, step (at_ .streaming .awaitAck ackOkBytes) = .next t ∧ t.phase = .awaitHeader) ∧
    ∃ t, step (at_ .streaming .awaitAck [0, 0, 0]) = .next t ∧ t.phase = .ready ∧ t.session = .streaming ∧
      t.trace.getLast? = some (.warned .gnfd (.ack .shortRead)) := ⟨⟨_, rfl, rfl⟩, ⟨_, rfl, rfl, rfl, rfl⟩⟩
/-- V-HDR-1: no target, the payload bytes stay. -/
theorem test_hdr_no_target_leaves_bytes : ∃ t, step (at_ .streaming .awaitHeader (noTargetHeader.bytes ++ [0x64, 0])) = .next t ∧
    t.rx = [0x64, 0] ∧ t.result = some (.det .none) ∧ t.phase = .ready := ⟨_, rfl, rfl, rfl, rfl⟩
/-- V-HDR-5: one payload only. -/
theorem test_pld_takes_one_payload : ∃ t,
    step (at_ .streaming .awaitPayload [0x64, 0, 0xCE, 0xFF, 0x64, 0, 0x0A, 0, 0x99, 0x99]) = .next t ∧
    t.rx = [0x99, 0x99] ∧ t.records.length = 1 ∧ t.phase = .ready := ⟨_, rfl, rfl, rfl, rfl⟩
/-- V-HDR-7: the seven bytes are gone. -/
theorem test_pld_truncated : ∃ t, step (at_ .streaming .awaitPayload [0x64, 0, 0xCE, 0xFF, 0x64, 0, 0x0A]) = .next t ∧
    t.rx = [] ∧ t.records = [] ∧ t.result = some (.det .truncatedPayload) := ⟨_, rfl, rfl, rfl, rfl⟩
/-- V-CMD-9: the response to `GBYE` is not judged, and `close` comes next. -/
theorem test_gbye : ∃ t u, step { at_ .streaming .ready [0, 0, 0, 0, 0, 0, 0, 0, 0xFF] with cancelRequested := true } = .next t ∧
    t.session = .shuttingDown ∧ t.rx = [] ∧ step t = .next u ∧ u.sessionOutcome = some .normal := ⟨_, _, rfl, rfl, rfl, rfl, rfl⟩
/-- 44_host_session.md R161: a take that fails while streaming. -/
theorem test_transport_error : ∃ t, step (fails (at_ .streaming .awaitAck ackOkBytes)) = .next t ∧
    t.sessionOutcome = some .transportError ∧ t.tx = [0x47, 0x42, 0x59, 0x45, 0, 0, 0, 0] ∧ t.handle = none :=
  ⟨_, rfl, rfl, rfl, rfl⟩
/-- 44_host_session.md R161, D28: an `open` that fails; ENC is not invoked. Then the put of `INIT` fails after a good `open`. -/
theorem test_start_fails :
    (∃ t, step (fails fresh) = .next t ∧ t.sessionOutcome = some .transportError ∧ t.tx = [] ∧ t.result = none) ∧
    ∃ t, step (failsSecond fresh) = .next t ∧ t.sessionOutcome = some .transportError ∧ t.handle = none ∧
      t.tx = [0x47, 0x42, 0x59, 0x45, 0, 0, 0, 0] := ⟨⟨_, rfl, rfl, rfl, rfl⟩, _, rfl, rfl, rfl, rfl⟩
/-- 60_exceptions.md R171. -/
theorem test_outcome_codes : (PortResult.ack .notAcknowledged).kind.code = 3 ∧
    (PortResult.det .truncatedPayload).kind.code = 4 ∧ (PortResult.enc .invalidOpcode).kind.code = 7 ∧
    (PortResult.ack (.excessBytes .notAcknowledged)).kind.code = 9 ∧ SessionOutcome.transportError.kind.code = 6 := by decide

/-- What most obligations ask of a state: nothing presented to the block, the session state, the place of the exchange, an open
transport, a session that has not ended, and whether the next primitive fails. -/
abbrev At (s : State) (st : SessionState) (p : Phase) (io : Bool) : Prop :=
  s.calls = [] ∧ s.session = st ∧ s.phase = p ∧ s.handle ≠ none ∧ s.sessionOutcome = none ∧ s.nextReply.ioError = io

/-! ## Witnesses: for each obligation with hypotheses, an input that meets them together -/

/-- The longest payload there is, and the empty one. -/
theorem test_witness_EncodeCommandReturnsFrame :
    (List.replicate Config.payloadMax (0 : Byte)).length ≤ Config.payloadMax ∧ ([] : Bytes).length ≤ Config.payloadMax :=
  ⟨by simp, Nat.zero_le _⟩
/-- Opcodes of three, five and no bytes, and a state that shows `InvalidOpcode`. -/
theorem test_witness_InvalidOpcodeIffWrongLength : ([0, 0, 0] : Bytes).length ≠ 4 ∧ ([0, 0, 0, 0, 0] : Bytes).length ≠ 4 ∧
    ([] : Bytes).length ≠ 4 ∧
    (∃ t, exec (.encodeCommand [0, 0, 0] []) base = .next t ∧ t.result = some (.enc .invalidOpcode)) ∧
    base.calls = [] ∧ ∃ t, step base = .next t :=
  ⟨by decide, by decide, by decide, ⟨_, rfl, rfl⟩, rfl, _, rfl⟩
/-- One byte too many, and the two ends of the range of lengths. -/
theorem test_witness_PayloadBoundKeepsLengthExact : ([0, 0, 0, 0] : Bytes).length = 4 ∧
    Config.payloadMax < (List.replicate (Config.payloadMax + 1) (0 : Byte)).length ∧ Config.payloadMax ≤ Config.payloadMax ∧
    0 ≤ Config.payloadMax ∧ (Instr.gnfd targetHeader).format = some .cmd ∧
    encode (.gnfd targetHeader) = some (commandFrame Config.tagGnfd targetHeader.bytes) ∧ Config.tagGnfd.length = 4 :=
  ⟨rfl, by simp, Nat.le_refl _, Nat.zero_le _, rfl, rfl, rfl⟩
/-- A frame for each clause: one frame, the same twice, and two whose payloads are equally long. -/
theorem test_witness_EncoderLaws : (∃ f, encodeCommand [1, 2, 3, 4] [5] = .frame f) ∧
    ([5] : Bytes).length ≤ Config.payloadMax ∧ ([5] : Bytes).length = ([6] : Bytes).length ∧
    ∃ f, encodeCommand [1, 2, 3, 4] [6] = .frame f :=
  ⟨⟨_, rfl⟩, Nat.le_trans (by decide) (Nat.le_max_left 8 _), rfl, _, rfl⟩
/-- A well-formed frame of each format. -/
theorem test_witness_DecodeInvertsEncode :
    ((Instr.gnfd ⟨[1, 2, 3, 4, 5, 6, 7, 8], rfl⟩).wellFormed = true ∧ (Instr.gnfd ⟨[1, 2, 3, 4, 5, 6, 7, 8], rfl⟩).format = some .cmd ∧
      ∃ b, encode (.gnfd ⟨[1, 2, 3, 4, 5, 6, 7, 8], rfl⟩) = some b) ∧
    ((Instr.ackNotAcknowledged ⟨[1, 2, 3, 4, 5, 6, 7, 8], rfl⟩ 255).wellFormed = true ∧
      ∃ b, encode (.ackNotAcknowledged ⟨[1, 2, 3, 4, 5, 6, 7, 8], rfl⟩ 255) = some b) ∧
    ((Instr.hdrTarget targetHeader).wellFormed = true ∧ ∃ b, encode (.hdrTarget targetHeader) = some b) ∧
    ((Instr.pld 1 2 3 4).wellFormed = true ∧ ∃ b, encode (.pld 1 2 3 4) = some b) :=
  ⟨⟨rfl, rfl, _, rfl⟩, ⟨rfl, _, rfl⟩, ⟨rfl, _, rfl⟩, rfl, _, rfl⟩
/-- Bytes that decode, in each format. -/
theorem test_witness_EncodeInvertsDecode : (∃ i, decodeFrame .cmd [0x47, 0x42, 0x59, 0x45, 0, 0, 0, 0] = .ok i) ∧
    (∃ i, decodeFrame .ack nackBytes = .ok i) ∧ (∃ i, decodeFrame .hdr targetHeader.bytes = .ok i) ∧
    ∃ i, decodeFrame .pld targetHeader.bytes = .ok i := ⟨⟨_, rfl⟩, ⟨_, rfl⟩, ⟨_, rfl⟩, ⟨_, rfl⟩⟩
/-- The two ends of the nonzero statuses, a host that awaits an ack and one that does not. -/
theorem test_witness_AckDependsOnStatusAlone : (1 : Byte) ≠ 0 ∧ (255 : Byte) ≠ 0 ∧ base.phase ≠ .awaitAck ∧
    (at_ .streaming .awaitAck []).phase = .awaitAck := by decide
/-- Headers on both sides of the flag's boundary. -/
theorem test_witness_HeaderFlagDecides :
    (((⟨[9, 9, 9, 9, 0, 9, 9, 9], rfl⟩ : Header).bytes.getD 4 0).toNat ≤ 1 ↔ (noTargetHeader.bytes.getD 4 0).toNat ≤ 1) ∧
    ((targetHeader.bytes.getD 4 0).toNat ≤ 1 ↔ ((⟨[9, 9, 9, 9, 255, 9, 9, 9], rfl⟩ : Header).bytes.getD 4 0).toNat ≤ 1) := by decide
/-- Flag 1; a host that awaits the header and one that does not. -/
theorem test_witness_NoTargetConsumesNothing_NoTargetIsHandedOver : (noTargetHeader.bytes.getD 4 0).toNat ≤ 1 ∧ base.phase ≠ .awaitHeader ∧
    (at_ .streaming .awaitHeader []).phase = .awaitHeader ∧ (at_ .streaming .awaitHeader []).session = .streaming ∧
    (⟨[9, 9, 9, 9, 1, 9, 9, 9], rfl⟩ : Header).bytes.getD 4 0 = noTargetHeader.bytes.getD 4 0 := by decide
/-- Flag 2; a host that awaits the header and one that does not. -/
theorem test_witness_TargetHeaderAwaitsPayload : 2 ≤ (targetHeader.bytes.getD 4 0).toNat ∧
    (at_ .streaming .awaitHeader []).phase = .awaitHeader ∧ base.phase ≠ .awaitHeader := by decide
/-- Readers with eight, with seven and with no bytes left. -/
theorem test_witness_DetectionFromReader :
    2 ≤ (targetHeader.bytes.getD 4 0).toNat ∧ 8 ≤ base.reader.bytes.length - base.reader.pos ∧
    (∀ n ∈ [1, 8], ({ base with reader := ⟨base.reader.bytes, n⟩ } : State).reader.bytes.length -
      ({ base with reader := ⟨base.reader.bytes, n⟩ } : State).reader.pos < 8) := by decide
/-- Without and with a handle; a read that fails while streaming and while shutting down. -/
theorem test_witness_DetectionFromStream : (2 ≤ (targetHeader.bytes.getD 4 0).toNat ∧ fresh.handle = none ∧ base.handle ≠ none ∧
    base.nextReply.ioError = false ∧ base.phase ≠ .awaitHeader) ∧
    ((fails base).handle ≠ none ∧ (fails base).nextReply.ioError = true ∧ Fragile (fails base)) ∧
    (fails (at_ .shuttingDown .ready [])).handle ≠ none ∧ (fails (at_ .shuttingDown .ready [])).nextReply.ioError = true ∧
    ¬Fragile (fails (at_ .shuttingDown .ready [])) :=
  ⟨by decide, ⟨nofun, rfl, .inr (.inr (.inr rfl))⟩, nofun, rfl, by rintro (h | h | h | h) <;> cases h⟩
/-- A host that awaits the payload and one that does not. -/
theorem test_witness_PayloadIsRecorded : (at_ .streaming .awaitPayload []).phase = .awaitPayload ∧
    (at_ .streaming .awaitPayload []).session = .streaming ∧ base.phase ≠ .awaitPayload := by decide
/-- The host awaits a header, with nothing presented to the block; the next call succeeds or fails. -/
theorem test_witness_HeaderThenPayloadIsWholeDetection :
    2 ≤ (targetHeader.bytes.getD 4 0).toNat ∧ At (at_ .streaming .awaitHeader []) .streaming .awaitHeader false ∧
    At (fails (at_ .streaming .awaitHeader [])) .streaming .awaitHeader true := by decide
/-- The ends of the range, and of the fields. -/
theorem test_witness_IntegersConvertExactly : |(2 ^ 53 : Int)| ≤ 2 ^ 53 ∧ |(-(2 ^ 53) : Int)| ≤ 2 ^ 53 ∧ |(0 : Int)| ≤ 2 ^ 53 ∧
    |(-32768 : Int)| ≤ 2 ^ 53 := by decide
/-- `35.0 / 100.0` and `35.0 * 0.01` are finite, and a hundred is not zero. -/
theorem test_witness_ProductAndQuotientCorrectlyRounded :
    F64.isFinite 0x4041800000000000 = true ∧ F64.isFinite 0x3F847AE147AE147B = true ∧
    F64.isFinite (F64.mul 0x4041800000000000 0x3F847AE147AE147B) = true ∧ F64.isFinite 0x4059000000000000 = true ∧
    F64.isFinite (F64.div 0x4041800000000000 0x4059000000000000) = true ∧ F64.toRat 0x4059000000000000 ≠ 0 := by
  refine ⟨by decide +kernel, by decide +kernel, by decide +kernel, by decide +kernel, by decide +kernel, ?_⟩
  have hm : F64.mant 0x4059000000000000 ≠ 0 := by decide +kernel
  unfold F64.toRat
  have hs : (if F64.isNeg 0x4059000000000000 then (-1 : ℚ) else 1) ≠ 0 := by split <;> norm_num
  exact mul_ne_zero (mul_ne_zero hs (Nat.cast_ne_zero.mpr hm)) (zpow_ne_zero _ two_ne_zero)
/-- Two equal payloads have equal fields. -/
theorem test_witness_DirectFieldsInjective :
    (targetOf Config.numerics 1 2 3 4).distanceCm = (targetOf Config.numerics 1 2 3 4).distanceCm ∧
    (targetOf Config.numerics 1 2 3 4).speedKmh = (targetOf Config.numerics 1 2 3 4).speedKmh ∧
    (targetOf Config.numerics 1 2 3 4).angleDeg = (targetOf Config.numerics 1 2 3 4).angleDeg ∧
    (targetOf Config.numerics 1 2 3 4).magnitude = (targetOf Config.numerics 1 2 3 4).magnitude := ⟨rfl, rfl, rfl, rfl⟩
/-- An admissible numerics record and its bound (Laws/Numerics.lean). -/
theorem test_witness_ProjectionAccuracy : ∃ (N : Numerics) (eps : ℚ), N.Admissible eps :=
  ⟨cutNumerics, Config.sincosEps, cutNumerics_admissible⟩
/-- A call that succeeds, and one that fails. -/
theorem test_witness_TakeAndPut : base.nextReply.ioError = false ∧
    (fails base).nextReply.ioError = true := by decide
/-- A session about to start. -/
theorem test_witness_InitOpensAndPuts : fresh.session = .disconnected ∧ fresh.phase = .ready ∧ fresh.sessionOutcome = none ∧
    fresh.startEvent = some 3 ∧ fresh.nextReply.ioError = false ∧ (fresh.openPort 3).2.nextReply.ioError = false :=
  ⟨rfl, rfl, rfl, rfl, rfl, rfl⟩
/-- The two states a setup command is put from. -/
theorem test_witness_SetupCommandsPut :
    At (at_ .initializing .ready []) .initializing .ready false ∧
    At (at_ .configuringSpeed .ready []) .configuringSpeed .ready false := by decide
/-- Streaming, without and with a cancellation. -/
theorem test_witness_GnfdPuts_GbyePutsAndDropsResponse :
    (At base .streaming .ready false ∧ base.cancelRequested = false) ∧
    At { base with cancelRequested := true } .streaming .ready false ∧
    ({ base with cancelRequested := true } : State).cancelRequested = true ∧
    ({ base with cancelRequested := true } : State).useReply.nextReply.ioError = false := by decide
/-- An exchange in flight in each session state, with an `Ok` ack, a failed one and none: the obligations about acks. -/
theorem test_witness_acks :
    At (at_ .initializing .awaitAck ackOkBytes) .initializing .awaitAck false ∧
    (At (at_ .initializing .awaitAck []) .initializing .awaitAck false ∧ decodeAck (([] : Bytes).take 9) ≠ .ok) ∧
    At (at_ .configuringSpeed .awaitAck []) .configuringSpeed .awaitAck false ∧
    At (at_ .configuringRange .awaitAck nackBytes) .configuringRange .awaitAck false ∧
    (At (at_ .streaming .awaitAck nackBytes) .streaming .awaitAck false ∧ (7 : Byte) ≠ 0 ∧
      decodeAck (((at_ .streaming .awaitAck nackBytes).rx ++ (at_ .streaming .awaitAck nackBytes).nextReply.arrived).take 9) ≠ .ok) ∧
    At (at_ .streaming .awaitAck ackOkBytes) .streaming .awaitAck false := by decide
/-- `InitAckSettlesThenRaisesBaud`, last clause. -/
theorem test_witness_InitAckSettlesThenRaisesBaud :
    ∃ t, exec (.ackOk targetHeader) (at_ .initializing .awaitAck []) = .next t ∧ t.calls = [] := ⟨_, rfl, rfl⟩
/-- No bytes and seven for a header and for a payload. -/
theorem test_witness_ShortHeaderWarns_TruncatedPayloadWarns :
    (∀ b ∈ [[], [1, 2, 3, 4, 5, 6, 7]], At (at_ .streaming .awaitHeader b) .streaming .awaitHeader false ∧
      (at_ .streaming .awaitHeader b).rx.length + (at_ .streaming .awaitHeader b).nextReply.arrived.length < 8) ∧
    ∀ b ∈ [[], [1, 2, 3, 4, 5, 6, 7]], At (at_ .streaming .awaitPayload b) .streaming .awaitPayload false ∧
      (at_ .streaming .awaitPayload b).rx.length + (at_ .streaming .awaitPayload b).nextReply.arrived.length < 8 := by decide
/-- Failing calls: at a take, at the put of each command, at the baud raise, at `open`, at the put of `INIT` after it. -/
theorem test_witness_TransportErrorEndsSession :
    (At (fails (at_ .streaming .awaitHeader [])) .streaming .awaitHeader true ∧ Fragile (fails (at_ .streaming .awaitHeader []))) ∧
    At (fails (at_ .initializing .ready [])) .initializing .ready true ∧
    At (fails (at_ .configuringSpeed .ready [])) .configuringSpeed .ready true ∧
    (At (fails base) .streaming .ready true ∧ (fails base).cancelRequested = false) ∧
    At (fails (at_ .initializing .awaitAck [])) .initializing .awaitAck true ∧
    (fails fresh).session = .disconnected ∧ (fails fresh).phase = .ready ∧ (fails fresh).sessionOutcome = none ∧
    (fails fresh).startEvent = some 3 ∧ (fails fresh).nextReply.ioError = true ∧
    (failsSecond fresh).session = .disconnected ∧ (failsSecond fresh).phase = .ready ∧
    (failsSecond fresh).sessionOutcome = none ∧ (failsSecond fresh).startEvent = some 3 ∧
    (failsSecond fresh).nextReply.ioError = false ∧ ((failsSecond fresh).openPort 3).2.nextReply.ioError = true := by
  refine ⟨⟨by decide, .inr (.inr (.inr rfl))⟩, by decide, by decide, by decide, by decide, ?_⟩
  exact ⟨rfl, rfl, rfl, rfl, rfl, rfl, rfl, rfl, rfl, rfl, rfl⟩
/-- A cancellation seen between cycles, with a put that succeeds and one that fails. -/
theorem test_witness_ShutdownAlwaysEndsNormally :
    (At { base with cancelRequested := true } .streaming .ready false ∧
      At (fails { base with cancelRequested := true }) .streaming .ready true) ∧
    ({ base with cancelRequested := true } : State).cancelRequested = true ∧
    (fails { base with cancelRequested := true }).cancelRequested = true := by decide
/-- A session that has ended, with and without an operation presented. -/
theorem test_witness_FinishedSessionTakesNoEvent : ended.session = .disconnected ∧ ended.phase = .ready ∧
    ended.sessionOutcome ≠ none ∧ ended.calls = [] := by decide
/-- An operation presented; a frame at each place of the exchange. -/
theorem test_witness_StepRunsDecodedInstruction :
    ({ base with calls := [.ack []] } : State).calls = .ack [] :: [] ∧
    (At (at_ .streaming .awaitAck nackBytes) .streaming .awaitAck false ∧
      ∃ i, decodeFrame .ack (((at_ .streaming .awaitAck nackBytes).rx ++
        (at_ .streaming .awaitAck nackBytes).nextReply.arrived).take 9) = .ok i) ∧
    (At (at_ .streaming .awaitHeader targetHeader.bytes) .streaming .awaitHeader false ∧
      ∃ i, decodeFrame .hdr (((at_ .streaming .awaitHeader targetHeader.bytes).rx ++
        (at_ .streaming .awaitHeader targetHeader.bytes).nextReply.arrived).take 8) = .ok i) ∧
    At (at_ .streaming .awaitPayload targetHeader.bytes) .streaming .awaitPayload false ∧
      ∃ i, decodeFrame .pld (((at_ .streaming .awaitPayload targetHeader.bytes).rx ++
        (at_ .streaming .awaitPayload targetHeader.bytes).nextReply.arrived).take 8) = .ok i :=
  ⟨rfl, ⟨by decide, _, rfl⟩, ⟨by decide, _, rfl⟩, by decide, _, rfl⟩
/-- Between exchanges, in each session state and with `Start` there or not. -/
theorem test_witness_StepSelectsCommand :
    (fresh.calls = [] ∧ fresh.phase = .ready ∧ fresh.session = .disconnected ∧ fresh.sessionOutcome = none ∧
      fresh.startEvent ≠ none ∧ ({ fresh with startEvent := none } : State).startEvent = none) ∧
    At (at_ .initializing .ready []) .initializing .ready false ∧
    At (at_ .configuringSpeed .ready []) .configuringSpeed .ready false ∧
    (At base .streaming .ready false ∧ base.cancelRequested = false) ∧
    At { base with cancelRequested := true } .streaming .ready false ∧
    ({ base with cancelRequested := true } : State).cancelRequested = true := by decide
/-- A well-formed instruction of each kind that is placed in its own way. -/
theorem test_witness_PlacedInstructionRunsNext : (Instr.init ⟨[3, 0, 0, 0], rfl⟩).wellFormed = true ∧
    (Instr.ackNotAcknowledged targetHeader 1).wellFormed = true ∧ (Instr.hdrNoTarget noTargetHeader).wellFormed = true ∧
    (Instr.encodeCommand [] []).wellFormed = true := ⟨rfl, rfl, rfl, rfl⟩

/-- `base` is a proper state. -/
theorem base_sessionInv : SessionInv base where
  handle_open := by decide
  ack_awaited := fun h => nomatch h
  telemetry_awaited := fun _ => rfl
  range_awaits := fun h => nomatch h
  outcome_final := fun h => absurd rfl h
  unstarted_closed := fun h => nomatch h.1
  low_rate := fun h => nomatch h
  raised := fun h => nomatch h
  high_rate := fun _ => rfl
  framed := rfl
  port_open := fun _ => nofun
  unrecorded := fun _ => rfl
  init_failed := fun h => nomatch h
  cancelled := fun h => nomatch h

/-- `fresh` is a proper state. -/
theorem fresh_sessionInv : SessionInv fresh where
  handle_open := by decide
  ack_awaited := fun h => nomatch h
  telemetry_awaited := fun h => by rcases h with h | h <;> nomatch h
  range_awaits := fun h => nomatch h
  outcome_final := fun _ => rfl
  unstarted_closed := fun _ => ⟨rfl, rfl, rfl⟩
  low_rate := fun h => nomatch h
  raised := fun h => nomatch h
  high_rate := fun h => by rcases h with h | h | h | h <;> nomatch h
  framed := rfl
  port_open := fun h => absurd rfl h
  unrecorded := fun _ => rfl
  init_failed := fun h => nomatch h
  cancelled := fun h => by rcases h with h | h <;> nomatch h

/-- A proper state that streams, takes a step, and is executed from. -/
theorem test_witness_StepKeepsSessionInv : SessionInv base ∧ (∃ t, step base = .next t) ∧
    ∃ t, exec (.gnfd targetHeader) base = .next t := ⟨base_sessionInv, ⟨_, rfl⟩, _, rfl⟩
/-- The same with the frames of the setup in `tx`. -/
theorem test_witness_StepKeepsTxInv : ∃ s t : State, SessionInv s ∧ TxInv s ∧ step s = .next t ∧ s.tx.length = 36 :=
  ⟨{ base with tx := setupBytes base.payloads }, _, { base_sessionInv with }, ⟨0, rfl⟩, rfl, rfl⟩
/-- A proper state of a session that has not ended. -/
theorem test_witness_SessionNeverStuck : SessionInv base ∧ base.calls = [] ∧ base.sessionOutcome = none :=
  ⟨base_sessionInv, rfl, rfl⟩
/-- A step that enters `ShuttingDown`. -/
theorem test_witness_OnlyCancellationShutsDown : ∃ t, step { base with cancelRequested := true } = .next t ∧
    base.session ≠ .shuttingDown ∧ t.session = .shuttingDown := ⟨_, rfl, by decide, rfl⟩
/-- A step that records. -/
theorem test_witness_HistoryOnlyGrows : ∃ t, step (at_ .streaming .awaitPayload targetHeader.bytes) = .next t ∧
    t.records ≠ (at_ .streaming .awaitPayload targetHeader.bytes).records ∧
    (∃ u, step { base with cancelRequested := true } = .next u ∧ u.cancelRequested = true) :=
  ⟨_, rfl, List.cons_ne_nil _ _, _, rfl, rfl⟩
/-- The ack of `INIT` awaited, and a take that fails: the courtesy `GBYE` goes out at the low rate. -/
theorem test_witness_RatesKeepTheirOrder : base.baud = some Config.baudHigh ∧ ∃ s t : State, SessionInv s ∧
    step s = .next t ∧ s.baud = some Config.baudInit ∧ t.tx ≠ s.tx := by
  refine ⟨rfl, { fails (at_ .initializing .awaitAck []) with baud := some Config.baudInit }, _, ?_, rfl, rfl, List.cons_ne_nil _ _⟩
  exact {
    handle_open := by decide
    ack_awaited := fun _ => .inl rfl
    telemetry_awaited := fun h => by rcases h with h | h <;> nomatch h
    range_awaits := fun h => nomatch h
    outcome_final := fun h => absurd rfl h
    unstarted_closed := fun h => nomatch h.1
    low_rate := fun _ _ => rfl
    raised := fun _ h => nomatch h
    high_rate := fun h => by rcases h with h | h | h | h <;> nomatch h
    framed := rfl
    port_open := fun _ => nofun
    unrecorded := fun _ => rfl
    init_failed := fun h => nomatch h
    cancelled := fun h => nomatch h }
/-- A step that ends a session. -/
theorem test_witness_TerminationHandsOverRecords : ∃ t, step (at_ .initializing .awaitAck []) = .next t ∧
    (at_ .initializing .awaitAck []).sessionOutcome = none ∧ t.sessionOutcome = some .initializationFailed ∧
    (∃ u, step (fails base) = .next u ∧ u.sessionOutcome = some .transportError) ∧ SessionInv (fails base) ∧
    SessionInv (fails fresh) ∧ (fails fresh).session ≠ .streaming ∧ (fails fresh).session ≠ .shuttingDown ∧
    (fails fresh).sessionOutcome = none ∧ ∃ v, step (fails fresh) = .next v ∧ v.sessionOutcome = some .transportError :=
  ⟨_, rfl, rfl, rfl, ⟨_, rfl, rfl⟩, { base_sessionInv with }, { fresh_sessionInv with }, by decide, by decide, rfl, _, rfl, rfl⟩
/-- Two kinds with the same code. -/
theorem test_witness_OutcomeCodes : OutcomeKind.ok.code = (PortResult.det .none).kind.code := rfl

end Sys2Proof.Tests
end

/-! # What one step can do

Inversion lemmas for `fetch`, `exec` and `step`: each says once which next states there are, guards included. -/

namespace Sys2Proof.Machine

open Sys2Proof.Safety

variable {s t u : State}

/-! ## The commands -/

theorem execRspi_eq_next {p : Value} : execRspi p s = .next t ↔ s.mayCommand .initializing = true ∧
    ((s.built Config.tagRspi p.bytes).enter .configuringSpeed).sendCommand (commandFrame Config.tagRspi p.bytes) = t := by
  unfold execRspi
  split <;> simp [*]

theorem execRrai_eq_next {p : Value} : execRrai p s = .next t ↔ s.mayCommand .configuringSpeed = true ∧
    ((s.built Config.tagRrai p.bytes).enter .configuringRange).sendCommand (commandFrame Config.tagRrai p.bytes) = t := by
  unfold execRrai
  split <;> simp [*]

theorem execGnfd_eq_next {g : Descriptor} : execGnfd g s = .next t ↔
    (s.mayCommand .streaming = true ∧ s.cancelRequested = false) ∧
    (s.built Config.tagGnfd g.bytes).sendCommand (commandFrame Config.tagGnfd g.bytes) = t := by
  unfold execGnfd
  split <;> simp_all

theorem execGbye_eq_next : execGbye s = .next t ↔
    (s.mayCommand .streaming = true ∧ s.cancelRequested = true) ∧
    ((s.built Config.tagGbye []).enter .shuttingDown).sayGoodbye = t := by
  unfold execGbye
  split <;> simp_all

/-- `INIT` starts a pending session: its `open` succeeds and the frame is put, or it fails and the session is over. -/
theorem execInit_eq_next {p : Value} : execInit p s = .next t ↔
    s.sessionOutcome = none ∧ s.session = .disconnected ∧ s.phase = .ready ∧
    ∃ port, s.startEvent = some port ∧
      (s.nextReply.ioError = false ∧
        (((({ s with startEvent := none } : State).openPort port).2.built Config.tagInit p.bytes).enter
          .initializing).sendCommand (commandFrame Config.tagInit p.bytes) = t ∨
       s.nextReply.ioError = true ∧
        ((({ s with startEvent := none } : State).openPort port).2.answer none).failOpen = t) := by
  unfold execInit
  have hr : ({ s with startEvent := none } : State).nextReply = s.nextReply := rfl
  generalize ({ s with startEvent := none } : State) = u at hr ⊢
  cases s.sessionOutcome
  case some => simp
  by_cases hg : s.session = .disconnected ∧ s.phase = .ready
  case neg =>
    rw [if_neg hg]
    simpa using fun hs hp => absurd ⟨hs, hp⟩ hg
  cases s.startEvent
  case none => simp [hg]
  cases hi : s.nextReply.ioError
  · simp [hg, State.openPort_of_ok (hr ▸ hi)]
  · simp [hg, State.openPort_of_error (hr ▸ hi)]

/-! ## Operations of the block -/

theorem execEncodeCommand_eq_next {opcode payload : Bytes} : execEncodeCommand opcode payload s = .next t ↔
    ¬(opcode.length = Config.opcodeLen ∧ Config.payloadMax < payload.length) ∧
    s.answer (some (.enc (encodeCommand opcode payload))) = t := by
  unfold execEncodeCommand
  split <;> simp_all

/-- DET on a finite reader writes the result port and the reader, nothing else. -/
theorem detectFromReader_eq (h : Header) (s : State) : detectFromReader h s = { s with
    result := some (.det (decodeDetection Config.numerics h s.reader).1)
    reader := (decodeDetection Config.numerics h s.reader).2 } := rfl

/-- DET on the receive stream: no take without a target; with one, a take that fails or that returns bytes. -/
theorem detectFromStream_eq_next {h : Header} : detectFromStream h s = .next t ↔
    (h.noTarget = true ∧ s.deliver .awaitHeader .none = t) ∨
    (h.noTarget = false ∧ s.handle ≠ none ∧
      (s.nextReply.ioError = true ∧ ((s.read 8).2.answer none).ioFailure = t ∨
       s.nextReply.ioError = false ∧
        (s.read 8).2.deliver .awaitHeader
          (detectionOf Config.numerics ((s.rx ++ s.nextReply.arrived).take 8)) = t)) := by
  unfold detectFromStream
  cases hf : h.noTarget
  case true => simp
  cases hh : s.handle
  case none => simp
  cases hi : s.nextReply.ioError
  · simp [Config.detPayloadLen, State.read_of_ok hi]
  · simp [Config.detPayloadLen, State.read_of_error hi]

/-! ## Fetch -/

/-- Between exchanges the host fetches the command of its state, and changes nothing by that. -/
theorem fetchReady_eq_run {i : Instr} : fetchReady s = .run i t ↔ s = t ∧
    ((s.session = .disconnected ∧ s.sessionOutcome = none ∧ s.startEvent ≠ none ∧ .init s.payloads.init = i) ∨
     (s.session = .initializing ∧ .rspi s.payloads.rspi = i) ∨
     (s.session = .configuringSpeed ∧ .rrai s.payloads.rrai = i) ∨
     (s.session = .streaming ∧ s.cancelRequested = true ∧ .gbye = i) ∨
     (s.session = .streaming ∧ s.cancelRequested = false ∧ .gnfd s.payloads.gnfd = i)) := by
  unfold fetchReady
  cases hs : s.session
  case disconnected => cases s.sessionOutcome <;> cases s.startEvent <;> simp [and_comm]
  case streaming => cases s.cancelRequested <;> simp [and_comm]
  all_goals simp [and_comm]

/-- Between exchanges the host by itself waits for `Start`, enters `Streaming`, or closes the transport. -/
theorem fetchReady_eq_host : fetchReady s = .host t ↔
    (s.session = .disconnected ∧ s.sessionOutcome = none ∧ s.startEvent = none ∧ s.answer none = t) ∨
    (s.session = .configuringRange ∧ (s.answer none).enter .streaming = t) ∨
    (s.session = .shuttingDown ∧ (s.answer none).closePort.finish .normal = t) := by
  unfold fetchReady
  cases hs : s.session
  case disconnected => cases s.sessionOutcome <;> cases s.startEvent <;> simp
  case streaming => cases s.cancelRequested <;> simp
  all_goals simp

variable {f : Format} {n : Nat} {short : Bytes → State → State}

/-- A take gives an instruction where the bytes it returns are a frame. -/
theorem fetchFrame_eq_run {i : Instr} : fetchFrame s f n short = .run i t ↔
    s.handle ≠ none ∧ s.nextReply.ioError = false ∧
    decodeFrame f ((s.rx ++ s.nextReply.arrived).take n) = .ok i ∧ (s.read n).2 = t := by
  by_cases hh : s.handle = none
  · simp [fetchFrame_closed hh, hh]
  cases hi : s.nextReply.ioError
  case true => simp [fetchFrame_failed hh hi]
  cases hd : decodeFrame f ((s.rx ++ s.nextReply.arrived).take n)
  · simp [fetchFrame_short hh hi hd]
  · simp [fetchFrame_frame hh hi hd, hh]

/-- A take is the host's own business where it fails or its bytes are no frame. -/
theorem fetchFrame_eq_host : fetchFrame s f n short = .host t ↔ s.handle ≠ none ∧
    (s.nextReply.ioError = true ∧ ((s.read n).2.answer none).ioFailure = t ∨
     s.nextReply.ioError = false ∧ (∃ e, decodeFrame f ((s.rx ++ s.nextReply.arrived).take n) = .error e) ∧
      short ((s.rx ++ s.nextReply.arrived).take n) (s.read n).2 = t) := by
  by_cases hh : s.handle = none
  · simp [fetchFrame_closed hh, hh]
  cases hi : s.nextReply.ioError
  case true => simp [fetchFrame_failed hh hi, hh]
  cases hd : decodeFrame f ((s.rx ++ s.nextReply.arrived).take n)
  · simp [fetchFrame_short hh hi hd, hh]
  · simp [fetchFrame_frame hh hi hd]

/-- A step that goes on executes a fetched instruction or is the host's own. -/
theorem step_eq_next : step s = .next t ↔
    (∃ i u, fetch s = .run i u ∧ exec i u = .next t) ∨ fetch s = .host t := by
  unfold step
  cases fetch s <;> simp

/-! # What every step keeps of the session's history -/

/-- `t` comes after `s` with the records `added`: what was put, recorded and reported in `s` stands in `t`, a cancellation
stays, and the session's parameters are the same (10_state.md R17, R19, R20, R24). Each field's default proof reads it off the
laws of the operation that leads from `s` to `t`. -/
structure State.Extends (added : List Record) (s t : State) : Prop where
  tx : s.tx <+: t.tx := by simp
  records : t.records = s.records ++ added := by simp
  trace : s.trace <+: t.trace := by simp
  cancel : s.cancelRequested = true → t.cancelRequested = true := by simp +contextual
  payloads : t.payloads = s.payloads := by simp
  usable : t.transportUsable = s.transportUsable := by simp

namespace State.Extends

theorem trans {a b : List Record} (h : Extends a s t) (k : Extends b t u) : Extends (a ++ b) s u where
  tx := h.tx.trans k.tx
  records := by rw [k.records, h.records, List.append_assoc]
  trace := h.trace.trans k.trace
  cancel := fun c => k.cancel (h.cancel c)
  payloads := k.payloads.trans h.payloads
  usable := k.usable.trans h.usable

variable (s)

protected theorem refl : Extends [] s s := {}

/-! ## The operations that record nothing -/

theorem answer (r : Option PortResult) : Extends [] s (s.answer r) := {}
theorem log (e : Effect) : Extends [] s (s.log e) := {}
theorem enter (st : SessionState) : Extends [] s (s.enter st) := {}
theorem setPhase (p : Phase) : Extends [] s (s.setPhase p) := {}
theorem closePort : Extends [] s s.closePort := {}
theorem finish (o : SessionOutcome) : Extends [] s (s.finish o) := {}
theorem read (n : Nat) : Extends [] s (s.read n).2 := {}
theorem setBaud (rate : Nat) : Extends [] s (s.setBaud rate).2 := {}
theorem openPort (port : Nat) : Extends [] s (s.openPort port).2 := {}

theorem write (b : Bytes) : Extends [] s (s.write b).2 where
  tx := by rw [State.write_tx]; split <;> simp

theorem sayGoodbye : Extends [] s s.sayGoodbye := by
  unfold State.sayGoodbye
  split
  next h => simpa [h] using (write s gbyeFrame).trans (read _ Config.ackLen)
  next h => simpa [h] using write s gbyeFrame

theorem failInitialization : Extends [] s s.failInitialization := (closePort s).trans (finish _ _)

theorem raiseTransportError : Extends [] s s.raiseTransportError := by
  have goodbye : Extends [] s (if s.transportUsable then s.sayGoodbye else s) := by
    split
    · exact sayGoodbye s
    · exact .refl s
  exact (goodbye.trans (closePort _)).trans (finish _ _)

theorem ioFailure : Extends [] s s.ioFailure := by
  unfold State.ioFailure
  cases s.session
  case disconnected | shuttingDown => exact setPhase s _
  all_goals exact raiseTransportError s

theorem sendCommand (b : Bytes) : Extends [] s (s.sendCommand b) := by
  unfold State.sendCommand
  split
  next h => simpa [h] using (write s b).trans (setPhase _ .awaitAck)
  next h => simpa [h] using (write s b).trans (ioFailure _)

theorem warnUnlessOk (w : WarnStep) (o : AckOutcome) : Extends [] s (s.warnUnlessOk w o) := by
  unfold State.warnUnlessOk
  split
  · exact log s _
  · exact .refl s

theorem raiseBaud : Extends [] s s.raiseBaud := by
  have raised := (log s (.settled Config.settleDelayMs)).trans (setBaud _ Config.baudHigh)
  unfold State.raiseBaud
  split
  next h => simpa [h] using raised.trans (setPhase _ .ready)
  next h => simpa [h] using raised.trans (ioFailure _)

theorem onAck (o : AckOutcome) : Extends [] s (s.onAck o) := by
  unfold State.onAck
  cases s.session
  case disconnected | shuttingDown => exact setPhase s _
  case initializing =>
    dsimp only
    split
    · exact failInitialization s
    · exact raiseBaud s
  case configuringSpeed | streaming => exact (warnUnlessOk s _ o).trans (setPhase _ _)
  case configuringRange => exact ((warnUnlessOk s _ o).trans (setPhase _ _)).trans (enter _ _)

theorem judgeAck (b : Bytes) : Extends [] s (s.judgeAck b) := by
  unfold State.judgeAck
  split
  · exact (answer s _).trans (onAck _ _)
  · exact answer s _

theorem onShortHeader (b : Bytes) : Extends [] s (s.onShortHeader b) :=
  ((answer s none).trans (log _ _)).trans (setPhase _ _)

theorem detectFromReader (h : Header) : Extends [] s (detectFromReader h s) := by
  rw [detectFromReader_eq]
  exact {}

end State.Extends

/-! ## The operations that record while streaming -/

/-- `t` comes after `s`, with records added only if `s` is streaming (10_state.md R17). -/
def State.Grows (s t : State) : Prop := ∃ added, (added ≠ [] → s.session = .streaming) ∧ s.Extends added t

theorem State.Extends.grows (h : State.Extends [] s t) : s.Grows t := ⟨[], fun ne => absurd rfl ne, h⟩

/-- What is recorded after a change that leaves the session state is recorded in that state. -/
theorem State.Grows.after (g : t.Grows u) (h : State.Extends [] s t) (hs : t.session = s.session) : s.Grows u := by
  obtain ⟨added, streaming, k⟩ := g
  exact ⟨added, fun ne => hs ▸ streaming ne, h.trans k⟩

namespace State.Grows

variable (s)

theorem onDecoded (r : DetResult) : s.Grows (s.onDecoded r) := by
  by_cases hs : s.session = .streaming
  · rw [State.onDecoded_streaming hs]
    cases r
    case some t => exact ⟨[⟨t, Config.timestamp s.draws⟩], fun _ => hs, {}⟩
    all_goals exact Extends.grows {}
  · have idle : s.onDecoded r = s.setPhase .ready := by
      unfold State.onDecoded
      cases h : s.session
      case streaming => exact absurd h hs
      all_goals rfl
    exact idle ▸ (Extends.setPhase s _).grows

theorem deliver (p : Phase) (r : DetResult) : s.Grows (s.deliver p r) := by
  unfold State.deliver
  split
  · exact (onDecoded _ r).after (.answer s _) rfl
  · exact (Extends.answer s _).grows

theorem testHeader (h : Header) : s.Grows (s.testHeader h) := by
  unfold State.testHeader
  split
  · exact deliver s _ _
  dsimp only
  split
  · exact ((Extends.answer s _).trans (.setPhase _ _)).grows
  · exact (Extends.answer s _).grows

end State.Grows

/-! ## The instructions -/

open State (Extends)

theorem execInit_grows {p : Value} (h : execInit p s = .next t) : s.Grows t := by
  have start : Extends [] s { s with startEvent := none } := {}
  obtain ⟨-, -, -, port, -, ⟨-, rfl⟩ | ⟨-, rfl⟩⟩ := execInit_eq_next.mp h
  · exact ((((start.trans (.openPort _ port)).trans (.answer _ _)).trans (.enter _ _)).trans (.sendCommand _ _)).grows
  · exact (((start.trans (.openPort _ port)).trans (.answer _ _)).trans (.finish _ _)).grows

theorem execDecodeDetection_grows {header : Header} {source : Source}
    (h : execDecodeDetection header source s = .next t) : s.Grows t := by
  cases source
  case reader =>
    cases h
    exact (Extends.detectFromReader s header).grows
  case stream =>
    obtain ⟨-, rfl⟩ | ⟨-, -, ⟨-, rfl⟩ | ⟨-, rfl⟩⟩ := detectFromStream_eq_next.mp h
    · exact .deliver s _ _
    · exact (((Extends.read s _).trans (.answer _ _)).trans (.ioFailure _)).grows
    · exact (State.Grows.deliver _ _ _).after (.read s _) (State.read_session s _)

theorem exec_grows {i : Instr} (h : exec i s = .next t) : s.Grows t := by
  cases i
  case init p => exact execInit_grows h
  case rspi p =>
    obtain ⟨-, rfl⟩ := execRspi_eq_next.mp h
    exact (((Extends.answer s _).trans (.enter _ _)).trans (.sendCommand _ _)).grows
  case rrai p =>
    obtain ⟨-, rfl⟩ := execRrai_eq_next.mp h
    exact (((Extends.answer s _).trans (.enter _ _)).trans (.sendCommand _ _)).grows
  case gnfd g =>
    obtain ⟨-, rfl⟩ := execGnfd_eq_next.mp h
    exact ((Extends.answer s _).trans (.sendCommand _ _)).grows
  case gbye =>
    obtain ⟨-, rfl⟩ := execGbye_eq_next.mp h
    exact (((Extends.answer s _).trans (.enter _ _)).trans (.sayGoodbye _)).grows
  case ackOk | ackNotAcknowledged =>
    cases h
    exact (Extends.judgeAck s _).grows
  case hdrNoTarget | hdrTarget =>
    cases h
    exact .testHeader s _
  case pld =>
    cases h
    exact .deliver s _ _
  case encodeCommand =>
    obtain ⟨-, rfl⟩ := execEncodeCommand_eq_next.mp h
    exact (Extends.answer s _).grows
  case decodeAck =>
    cases h
    exact (Extends.answer s _).grows
  case decodeDetection => exact execDecodeDetection_grows h

/-! ## The host's own steps -/

theorem fetchReady_grows (h : fetchReady s = .host t) : s.Grows t := by
  obtain ⟨-, -, -, rfl⟩ | ⟨-, rfl⟩ | ⟨-, rfl⟩ := fetchReady_eq_host.mp h
  · exact (Extends.answer s _).grows
  · exact ((Extends.answer s _).trans (.enter _ _)).grows
  · exact (((Extends.answer s _).trans (.closePort _)).trans (.finish _ _)).grows

theorem fetchFrame_grows (short_grows : ∀ b (s' : State), s'.Grows (short b s'))
    (h : fetchFrame s f n short = .host t) : s.Grows t := by
  obtain ⟨-, ⟨-, rfl⟩ | ⟨-, -, rfl⟩⟩ := fetchFrame_eq_host.mp h
  · exact (((Extends.read s n).trans (.answer _ _)).trans (.ioFailure _)).grows
  · exact (short_grows _ _).after (.read s n) (State.read_session s n)

theorem fetchSession_grows (h : fetchSession s = .host t) : s.Grows t := by
  unfold fetchSession at h
  cases hp : s.phase <;> rw [hp] at h
  case ready => exact fetchReady_grows h
  case awaitAck => exact fetchFrame_grows (fun b s' => (Extends.judgeAck s' b).grows) h
  case awaitHeader => exact fetchFrame_grows (fun b s' => (Extends.onShortHeader s' b).grows) h
  case awaitPayload => exact fetchFrame_grows (fun b s' => .deliver s' _ _) h

/-- Before an instruction is executed its bytes are taken, and that is all: nothing is recorded and the session state stays. -/
theorem fetch_run_extends {i : Instr} (h : fetch s = .run i t) : State.Extends [] s t ∧ t.session = s.session := by
  have taken (n : Nat) : State.Extends [] s (s.read n).2 ∧ (s.read n).2.session = s.session :=
    ⟨.read s n, State.read_session s n⟩
  cases hc : s.calls
  case cons c cs =>
    simp only [fetch, hc, Fetched.run.injEq] at h
    obtain ⟨-, rfl⟩ := h
    exact ⟨{}, rfl⟩
  rw [fetch_idle hc, fetchSession] at h
  cases hp : s.phase <;> rw [hp] at h
  case ready =>
    obtain ⟨rfl, -⟩ := fetchReady_eq_run.mp h
    exact ⟨.refl s, rfl⟩
  all_goals
    obtain ⟨-, -, -, rfl⟩ := fetchFrame_eq_run.mp h
    exact taken _

/-- A step of the host's own is one of the session. -/
theorem fetch_eq_host : fetch s = .host t ↔ s.calls = [] ∧ fetchSession s = .host t := by
  unfold fetch
  cases s.calls <;> simp

theorem step_grows (h : step s = .next t) : s.Grows t := by
  obtain ⟨i, u, hf, he⟩ | hf := step_eq_next.mp h
  · obtain ⟨k, hs⟩ := fetch_run_extends hf
    exact (exec_grows he).after k hs
  · exact fetchSession_grows (fetch_eq_host.mp hf).2

/-- Settles O56: every operation extends the history, and only the end of a cycle while streaming records. -/
theorem historyOnlyGrows : Obligations.HistoryOnlyGrows := by
  intro s t h
  obtain ⟨added, streaming, k⟩ := step_grows h
  refine ⟨k.tx, ⟨added, k.records.symm⟩, k.trace, k.cancel, k.payloads, k.usable, fun ne => streaming ?_⟩
  rintro rfl
  exact ne (by simpa using k.records)

/-! # The result port is never read -/

/-- A take neither reads nor writes the result port. -/
theorem State.read_answer (r : Option PortResult) (n : Nat) :
    (s.answer r).read n = ((s.read n).1, (s.read n).2.answer r) := by
  cases hi : s.nextReply.ioError
  · rw [State.read_of_ok hi, State.read_of_ok (s := s.answer r) hi]
    rfl
  · rw [State.read_of_error hi, State.read_of_error (s := s.answer r) hi]
    rfl

/-- An `open` neither reads nor writes the result port. -/
theorem State.openPort_answer (r : Option PortResult) (port : Nat) :
    (s.answer r).openPort port = ((s.openPort port).1, (s.openPort port).2.answer r) := by
  cases hi : s.nextReply.ioError
  · rw [State.openPort_of_ok hi, State.openPort_of_ok (s := s.answer r) hi]
    rfl
  · rw [State.openPort_of_error hi, State.openPort_of_error (s := s.answer r) hi]
    rfl

theorem execInit_answer (r : Option PortResult) (p : Value) : execInit p (s.answer r) = execInit p s := by
  have start : ({ s.answer r with startEvent := none } : State) = ({ s with startEvent := none } : State).answer r := rfl
  unfold execInit
  rw [start]
  generalize ({ s with startEvent := none } : State) = u
  simp only [State.answer_sessionOutcome, State.answer_session, State.answer_phase, State.answer_startEvent,
    State.openPort_answer]
  split_ifs
  case pos => rfl
  case neg => rfl
  split
  · rfl
  next port _ => rcases u.openPort port with ⟨_ | _, v⟩ <;> rfl

theorem detectFromStream_answer (r : Option PortResult) (h : Header) :
    detectFromStream h (s.answer r) = detectFromStream h s := by
  unfold detectFromStream
  rw [State.read_answer]
  rcases s.read Config.detPayloadLen with ⟨_ | payload, u⟩ <;> rfl

/-- Every instruction writes the result port before anything could read it. -/
theorem exec_answer (r : Option PortResult) (i : Instr) : exec i (s.answer r) = exec i s := by
  cases i
  case init p => exact execInit_answer r p
  case decodeDetection header source =>
    cases source
    · exact detectFromStream_answer r header
    · rfl
  all_goals rfl

/-- What was fetched, its instruction to be executed with `r` on the result port. -/
def Fetched.answer (r : Option PortResult) : Fetched → Fetched
  | .run i s => .run i (s.answer r)
  | .host s => .host s
  | .stop e => .stop e
  | .broken e => .broken e

theorem fetchReady_answer (r : Option PortResult) : fetchReady (s.answer r) = (fetchReady s).answer r := by
  unfold fetchReady
  rw [State.answer_session]
  cases s.session
  case disconnected | streaming =>
    simp only [apply_ite (Fetched.answer r)]
    rfl
  all_goals rfl

theorem fetchFrame_answer (r : Option PortResult) {f : Format} {n : Nat} {short : Bytes → State → State}
    (hshort : ∀ b (u : State), short b (u.answer r) = short b u) :
    fetchFrame (s.answer r) f n short = (fetchFrame s f n short).answer r := by
  unfold fetchFrame
  rw [State.read_answer, State.answer_handle]
  cases s.handle
  case none => rfl
  rcases s.read n with ⟨_ | bytes, u⟩
  · rfl
  · cases hd : decodeFrame f bytes <;> simp [hd, hshort, Fetched.answer]

/-- Fetching neither depends on the result port nor touches it where an instruction is to run. -/
theorem fetch_answer (r : Option PortResult) : fetch (s.answer r) = (fetch s).answer r := by
  cases hc : s.calls
  case cons c cs => simp [fetch, hc, Fetched.answer, State.answer]
  rw [fetch_idle hc, fetch_idle (s := s.answer r) hc, fetchSession, fetchSession, State.answer_phase]
  cases s.phase
  case ready => exact fetchReady_answer r
  all_goals exact fetchFrame_answer r fun _ _ => rfl

theorem step_answer (r : Option PortResult) : step (s.answer r) = step s := by
  unfold step
  rw [fetch_answer]
  cases fetch s
  case run i u => exact exec_answer r i
  all_goals rfl

/-- Settles O59: no step and no instruction reads the result port. -/
theorem portsCarryNothing : Obligations.PortsCarryNothing :=
  fun _ r => ⟨step_answer r, exec_answer r⟩

/-! # Reset -/

/-- Settles O50: each value is the one `State.reset` sets. -/
theorem resetValues : Obligations.ResetValues := ⟨rfl, rfl, rfl, rfl, rfl, rfl, rfl, rfl, rfl, rfl⟩

/-- At reset the session has not begun: no handle, no baud, no port, no record, no exchange in flight. -/
theorem reset_sessionInv : SessionInv State.reset where
  handle_open := ⟨nofun, absurd rfl⟩
  ack_awaited := nofun
  telemetry_awaited := nofun
  range_awaits := nofun
  outcome_final := fun _ => rfl
  unstarted_closed := fun _ => ⟨rfl, rfl, rfl⟩
  low_rate := nofun
  raised := nofun
  high_rate := nofun
  framed := rfl
  port_open := absurd rfl
  unrecorded := fun _ => rfl
  init_failed := nofun
  cancelled := nofun

/-- At reset nothing has been put. -/
theorem reset_txInv : TxInv State.reset := rfl

/-- Settles O51: a session that has not begun meets both invariants. -/
theorem resetIsProper : Obligations.ResetIsProper := ⟨reset_sessionInv, reset_txInv⟩

end Sys2Proof.Machine

namespace Sys2Proof.Machine

variable (s : State)

/-! # Streams -/

/-- 20_memory.md R36: a take splits what `rx` holds with what arrives after its first `n` bytes, in order. -/
theorem State.read_splits (n : Nat) (h : s.nextReply.ioError = false) : ∃ r, (s.read n).1 = some r ∧
    r ++ (s.read n).2.rx = s.rx ++ s.nextReply.arrived ∧
    r.length = min n (s.rx.length + s.nextReply.arrived.length) := by
  rw [State.read_of_ok h]
  exact ⟨_, rfl, List.take_append_drop .., by rw [List.length_take, List.length_append]⟩

/-- 60_exceptions.md R187: a put appends all its bytes to `tx`, or fails and appends none. -/
theorem State.write_all_or_nothing (b : Bytes) :
    ((s.write b).1 = true ∧ (s.write b).2.tx = s.tx ++ b) ∨ ((s.write b).1 = false ∧ (s.write b).2.tx = s.tx) := by
  cases h : s.nextReply.ioError
  case false => rw [State.write_of_ok h]; exact .inl ⟨rfl, rfl⟩
  case true => rw [State.write_of_error h]; exact .inr ⟨rfl, rfl⟩

/-- Settles O29: a take splits the stream, and a put appends all or nothing. -/
theorem takeAndPut : Obligations.TakeAndPut := ⟨State.read_splits, State.write_all_or_nothing⟩

end Sys2Proof.Machine

namespace Sys2Proof

/-! # Wire formats -/

/-! ## Commands -/

/-- The first four bytes, least significant first; a byte that is missing counts as zero. -/
theorem leNat_take_four (f : Bytes) : leNat (f.take 4) = le32 (f.getD 0 0) (f.getD 1 0) (f.getD 2 0) (f.getD 3 0) := by
  match f with
  | b0 :: b1 :: b2 :: b3 :: _ => exact leNat_four b0 b1 b2 b3
  | [] | [_] | [_, _] | [_, _, _] => simp [leNat, le32, Nat.mul_add, ← Nat.mul_assoc, Nat.add_assoc]

/-- 30_encoding.md R52: the length field stands at bytes 4 to 7. -/
theorem lengthField_eq (f : Bytes) :
    lengthField f = le32 (f.getD 4 0) (f.getD 5 0) (f.getD 6 0) (f.getD 7 0) := by
  calc lengthField f
    _ = leNat ((f.drop 4).take 4) := rfl
    _ = _ := leNat_take_four _
    _ = _ := by simp

/-- The bytes that parse are those as long as their length field says, and they split behind the tag and the length. -/
theorem parseCommandFrame_eq_ok {f tag payload : Bytes} : parseCommandFrame f = .ok (tag, payload) ↔
    f.length = 8 + lengthField f ∧ f.take 4 = tag ∧ f.drop 8 = payload := by
  have head : commandHead = 8 := rfl
  unfold parseCommandFrame
  rw [head]
  split_ifs with short long
  · exact iff_of_false nofun fun ⟨len, _⟩ => short.ne len
  · exact iff_of_false nofun fun ⟨len, _⟩ => long.ne' len
  · have exact_length : f.length = 8 + lengthField f := by omega
    simp [← exact_length, Config.opcodeLen]

/-- Settles O5: the length that the parse asks for is at least the eight bytes before the payload. -/
theorem commandFrameParse : Obligations.CommandFrameParse := by
  intro f tag payload
  rw [parseCommandFrame_eq_ok, ← lengthField_eq, eq_comm (a := tag), eq_comm (a := payload)]
  exact ⟨fun ⟨len, parts⟩ => ⟨by omega, len, parts⟩, And.right⟩

/-- 30_encoding.md R68: the frame of a command with a value has length field 4. -/
theorem commandFrame_value (tag : Bytes) (p : Value) : commandFrame tag p.bytes = tag ++ [4, 0, 0, 0] ++ p.bytes := by
  have field : LE32 Config.valueLen = [4, 0, 0, 0] := by decide
  rw [commandFrame, p.length_bytes, field]

/-- 30_encoding.md R68: the frame of a command with a descriptor has length field 8. -/
theorem commandFrame_descriptor (tag : Bytes) (g : Descriptor) :
    commandFrame tag g.bytes = tag ++ [8, 0, 0, 0] ++ g.bytes := by
  have field : LE32 Config.descriptorLen = [8, 0, 0, 0] := by decide
  rw [commandFrame, g.length_bytes, field]

/-- Settles O6: each pattern is the tag, the length field of the command's payload, and the payload. -/
theorem commandBytePatterns : Obligations.CommandBytePatterns :=
  ⟨fun _ _ _ _ => congrArg some (commandFrame_value Config.tagInit _),
    fun _ _ _ _ => congrArg some (commandFrame_value Config.tagRspi _),
    fun _ _ _ _ => congrArg some (commandFrame_value Config.tagRrai _),
    fun _ _ _ _ _ _ _ _ => congrArg some (commandFrame_descriptor Config.tagGnfd _),
    rfl, rfl, rfl, rfl⟩

/-! ## Headers -/

/-- Two headers whose flags are on the same side of the boundary say the same. -/
theorem Header.noTarget_congr {h h' : Header}
    (same : (h.bytes.getD 4 0).toNat ≤ 1 ↔ (h'.bytes.getD 4 0).toNat ≤ 1) : h.noTarget = h'.noTarget :=
  Bool.eq_iff_iff.mpr (h.noTarget_iff.trans (same.trans h'.noTarget_iff.symm))

/-! ## Payloads -/

/-- 30_encoding.md R62, R65: an unsigned field, from its bytes. -/
theorem unsignedField_le16 (b0 b1 : Byte) : unsignedField (le16 b0 b1) = F64.ofInt (b0.toNat + 256 * b1.toNat) := by
  simp [unsignedField, zext16, le16_toNat]

/-- 30_encoding.md R66: the two's complement reading of a field, from its bytes. -/
theorem sext16_le16 (b0 b1 : Byte) : sext16 (le16 b0 b1) =
    if b0.toNat + 256 * b1.toNat ≤ 32767 then ((b0.toNat + 256 * b1.toNat : Nat) : Int)
    else ((b0.toNat + 256 * b1.toNat : Nat) : Int) - 65536 := by
  rw [sext16, le16_toNat]
  split <;> split <;> omega

namespace Machine

variable (s : State)

/-- Settles O19: the Target of eight bytes, its four fields written out from their bytes. -/
theorem payloadFields : Obligations.PayloadFields := by
  intro N p0 p1 p2 p3 p4 p5 p6 p7
  refine ⟨_, detectionOf_bytes N p0 p1 p2 p3 p4 p5 p6 p7, unsignedField_le16 p0 p1, ?speed, ?angle,
    unsignedField_le16 p6 p7, rfl, rfl⟩
  case speed => rw [← sext16_le16]; rfl
  case angle => rw [← sext16_le16]; rfl

/-! # What the frames do to a state -/

/-! ## Acks -/

/-- A failing primitive leaves the result port as the step had set it. -/
theorem State.ioFailure_result : s.ioFailure.result = s.result := by
  have fatal : s.raiseTransportError.result = s.result := by
    obtain ⟨-, -, -, -, -, -, -, -, -, -, -, -, result, -⟩ := s.raiseTransportError_spec
    exact result
  unfold State.ioFailure
  cases s.session
  case disconnected | shuttingDown => rfl
  all_goals exact fatal

theorem State.raiseBaud_result : s.raiseBaud.result = s.result := by
  cases h : s.nextReply.ioError
  · rw [State.raiseBaud_ok h]
    rfl
  · rw [State.raiseBaud_error h, State.ioFailure_result, State.setBaud_result]
    rfl

/-- The host's reaction to an ack, fatal or not, leaves the outcome on the result port. -/
theorem State.onAck_result (o : AckOutcome) : (s.onAck o).result = s.result := by
  cases h : s.session
  case disconnected | shuttingDown => simp [State.onAck, h]
  case configuringSpeed => rw [State.onAck_configuringSpeed h]
  case configuringRange => rw [State.onAck_configuringRange h]
  case streaming => rw [State.onAck_streaming h]
  case initializing =>
    by_cases ho : o = .ok
    · rw [ho, State.onAck_initializing_ok h, State.raiseBaud_result]
    · rw [State.onAck_initializing_failed h ho]
      rfl

/-- Whether or not an ack is awaited, the result port shows its outcome. -/
theorem State.judgeAck_result (b : Bytes) : (s.judgeAck b).result = some (.ack (decodeAck b)) := by
  by_cases h : s.phase = .awaitAck
  · rw [State.judgeAck_awaited h, State.onAck_result]
    rfl
  · rw [State.judgeAck_unawaited h]
    rfl

/-- An ack does to a state what its outcome says. -/
theorem State.judgeAck_congr {b b' : Bytes} (h : decodeAck b = decodeAck b') : s.judgeAck b = s.judgeAck b' := by
  simp only [State.judgeAck, h]

theorem exec_ackOk (a : AckBytes) : exec (.ackOk a) s = .next (s.judgeAck (ackFrame a 0)) := rfl

theorem exec_ackNotAcknowledged (a : AckBytes) (st : Byte) :
    exec (.ackNotAcknowledged a st) s = .next (s.judgeAck (ackFrame a st)) := rfl

/-- 30_encoding.md R56: status zero is `Ok`. -/
theorem decodeAck_ackFrame_zero (a : AckBytes) : decodeAck (ackFrame a 0) = .ok := by
  rw [ackFrame_eq, decodeAck_frame, if_pos rfl]

/-- 30_encoding.md R56: any other status is `NotAcknowledged`. -/
theorem decodeAck_ackFrame_nonzero (a : AckBytes) {st : Byte} (h : st ≠ 0) :
    decodeAck (ackFrame a st) = .notAcknowledged := by
  rw [ackFrame_eq, decodeAck_frame, if_neg h]

/-- Settles O12: the outcome of an ack depends on whether its status is zero, and its effect on the outcome. -/
theorem ackDependsOnStatusAlone : Obligations.AckDependsOnStatusAlone := by
  intro a a' st st' s hst hst'
  have ok (a : AckBytes) := decodeAck_ackFrame_zero a
  have nack (a : AckBytes) {st : Byte} (h : st ≠ 0) := decodeAck_ackFrame_nonzero a h
  simp only [exec_ackOk, exec_ackNotAcknowledged]
  refine ⟨?_, ?_, ⟨_, rfl, ?_⟩, ⟨_, rfl, ?_⟩, fun unawaited => ⟨?_, ?_⟩⟩
  · rw [s.judgeAck_congr ((ok a).trans (ok a').symm)]
  · rw [s.judgeAck_congr ((nack a hst).trans (nack a' hst').symm)]
  · rw [State.judgeAck_result, ok]
  · rw [State.judgeAck_result, nack a hst]
  · rw [State.judgeAck_unawaited unawaited, ok, State.answer]
  · rw [State.judgeAck_unawaited unawaited, nack a hst, State.answer]

/-! ## Headers -/

/-- DET tests a header by what its flag says, and by nothing else. -/
theorem State.testHeader_congr {h h' : Header} (same : h.noTarget = h'.noTarget) : s.testHeader h = s.testHeader h' := by
  simp only [State.testHeader, same]

theorem detectFromStream_congr {h h' : Header} (same : h.noTarget = h'.noTarget) :
    detectFromStream h s = detectFromStream h' s := by
  simp only [detectFromStream, same]

theorem detectFromReader_congr {h h' : Header} (same : h.noTarget = h'.noTarget) :
    detectFromReader h s = detectFromReader h' s := by
  simp only [detectFromReader, decodeDetection, same]

/-- Settles O13: each operation reads a header through `noTarget` alone. -/
theorem headerFlagDecides : Obligations.HeaderFlagDecides := by
  intro h h' src s flags
  have same := Header.noTarget_congr flags
  refine ⟨?_, congrArg _ (s.testHeader_congr same), congrArg _ (s.testHeader_congr same)⟩
  cases src
  case stream => exact detectFromStream_congr s same
  case reader => exact congrArg _ (detectFromReader_congr s same)

end Machine

end Sys2Proof

namespace Sys2Proof

/-! # ENC -/

/-! ## The bound on a payload -/

theorem Config.payloadMax_lt : Config.payloadMax < 2 ^ 32 := max_lt (by norm_num) Config.payloadMaxWord.isLt

/-! ## The two parts of a frame -/

section

variable {o p : Bytes}

/-- What stands before the payload: the opcode and the length field (30_encoding.md R51). -/
theorem take_commandFrame (ho : o.length = 4) : (commandFrame o p).take 8 = o ++ LE32 p.length :=
  List.take_left' (by rw [List.length_append, ho, LE32_length])

theorem drop_commandFrame (ho : o.length = 4) : (commandFrame o p).drop 8 = p :=
  List.drop_left' (by rw [List.length_append, ho, LE32_length])

end

/-- No two pairs of an opcode and a payload have the same frame, whatever the length field makes of a long payload. -/
theorem commandFrame_injective {o₁ o₂ p₁ p₂ : Bytes} (h₁ : o₁.length = 4) (h₂ : o₂.length = 4)
    (same : commandFrame o₁ p₁ = commandFrame o₂ p₂) : o₁ = o₂ ∧ p₁ = p₂ := by
  have payloads := congrArg (List.drop 8) same
  have heads := congrArg (List.take 8) same
  rw [drop_commandFrame h₁, drop_commandFrame h₂] at payloads
  rw [take_commandFrame h₁, take_commandFrame h₂, payloads] at heads
  exact ⟨List.append_cancel_right heads, payloads⟩

/-! ## Frames have at most sixteen bytes -/

theorem encodedLength : ∀ i, Laws.EncodedLength.Statement i
  | .init p => Laws.EncodedLength.init p
  | .rspi p => Laws.EncodedLength.rspi p
  | .rrai p => Laws.EncodedLength.rrai p
  | .gnfd g => Laws.EncodedLength.gnfd g
  | .gbye => Laws.EncodedLength.gbye
  | .ackOk a => Laws.EncodedLength.ackOk a
  | .ackNotAcknowledged a st => Laws.EncodedLength.ackNotAcknowledged a st
  | .hdrNoTarget h => Laws.EncodedLength.hdrNoTarget h
  | .hdrTarget h => Laws.EncodedLength.hdrTarget h
  | .pld d sp a m => Laws.EncodedLength.pld d sp a m
  | .encodeCommand o p => Laws.EncodedLength.encodeCommand o p
  | .decodeAck b => Laws.EncodedLength.decodeAck b
  | .decodeDetection h src => Laws.EncodedLength.decodeDetection h src

/-- A frame's sixteen bytes leave eight for the payload behind the opcode and the length field. -/
theorem payload_length_le_of_encode {i : Instr} {tag payload : Bytes}
    (h : encode i = some (commandFrame tag payload)) (ht : tag.length = 4) : payload.length ≤ 8 := by
  obtain ⟨-, bounds⟩ := encodedLength i
  have frame := (bounds _ h).2
  rw [commandFrame_length] at frame
  omega

/-! ## What is decoded is a frame, and none of the three operations -/

/-- A tag stands for its command where the payload has the command's length, and for nothing else. -/
theorem commandOf_format {tag payload : Bytes} {i : Instr} (h : commandOf tag payload = .ok i) :
    i.format = some .cmd := by
  unfold commandOf at h
  split_ifs at h
  all_goals
    split at h <;> cases h
    rfl

theorem decodeCmd_format {b : Bytes} {i : Instr} (h : decodeCmd b = .ok i) : i.format = some .cmd := by
  unfold decodeCmd at h
  split at h
  · exact commandOf_format h
  · cases h

theorem decodeFrame_format {f : Format} {b : Bytes} {i : Instr} (h : decodeFrame f b = .ok i) : i.format = some f := by
  cases f
  case cmd => exact decodeCmd_format h
  case ack | hdr =>
    simp only [decodeFrame, decodeAckFrame, decodeHdr] at h
    split at h <;> cases h
    split <;> rfl
  case pld =>
    simp only [decodeFrame, decodePld] at h
    split at h <;> cases h
    rfl

namespace Machine

variable {s t : State} {o p f : Bytes}

/-! ## The unit -/

theorem encodeCommand_of_length (h : o.length = 4) (p : Bytes) : encodeCommand o p = .frame (commandFrame o p) := if_pos h

theorem encodeCommand_of_length_ne (h : o.length ≠ 4) (p : Bytes) : encodeCommand o p = .invalidOpcode := if_neg h

theorem encodeCommand_eq_frame : encodeCommand o p = .frame f ↔ o.length = 4 ∧ commandFrame o p = f := by
  by_cases h : o.length = 4
  · simp [encodeCommand_of_length h, h]
  · simp [encodeCommand_of_length_ne h, h]

theorem encodeCommand_eq_invalidOpcode : encodeCommand o p = .invalidOpcode ↔ o.length ≠ 4 := by
  by_cases h : o.length = 4
  · simp [encodeCommand_of_length h, h]
  · simp [encodeCommand_of_length_ne h, h]

/-- 40_encode_command.md R81, R84: what can be presented is answered on the result port, and nothing else changes. -/
theorem exec_encodeCommand (s : State) (h : o.length = 4 → p.length ≤ Config.payloadMax) :
    exec (.encodeCommand o p) s = .next (s.answer (some (.enc (encodeCommand o p)))) :=
  execEncodeCommand_eq_next.mpr ⟨fun ⟨len, long⟩ => long.not_ge (h len), rfl⟩

/-- Settles O4: a frame is its opcode, the length field and its payload, so its parts can be read off it. -/
theorem encoderLaws : Obligations.EncoderLaws := by
  simp only [Obligations.EncoderLaws, encodeCommand_eq_frame, encodeCommand_eq_invalidOpcode]
  refine ⟨?length, ?total, ?injective, ?parses, ?head⟩
  case length =>
    rintro o p _ ⟨ho, rfl⟩
    rw [commandFrame_length, ho]
  case total => exact fun o _ => (em (o.length = 4)).imp_left fun ho => ⟨_, ho, rfl⟩
  case injective =>
    rintro o₁ p₁ o₂ p₂ _ ⟨h₁, rfl⟩ ⟨h₂, same⟩
    exact commandFrame_injective h₁ h₂ same.symm
  case parses =>
    rintro o p _ hp ⟨ho, rfl⟩
    exact parse_commandFrame ho (hp.trans_lt Config.payloadMax_lt)
  case head =>
    rintro o p p' _ _ same ⟨ho, rfl⟩ ⟨-, rfl⟩
    rw [take_commandFrame ho, take_commandFrame ho, same]

/-- Settles O3: every length up to the bound fits the four bytes of the length field. -/
theorem payloadBoundKeepsLengthExact : Obligations.PayloadBoundKeepsLengthExact := by
  refine ⟨le_max_left _ _, Nat.le_pred_of_lt Config.payloadMax_lt, ?refused, ?exact_length, ?commands⟩
  case refused => exact fun _ _ _ ho long => if_pos ⟨ho, long⟩
  case exact_length => exact fun n hn => ⟨_, _, _, _, LE32_eq n, le32_LE32 (hn.trans_lt Config.payloadMax_lt)⟩
  case commands => exact fun _ _ _ _ => payload_length_le_of_encode

/-- Settles O1: an admitted payload is presented, and the unit's answer is the one R81 writes out. -/
theorem encodeCommandReturnsFrame : Obligations.EncodeCommandReturnsFrame := by
  intro o p s hp
  rw [exec_encodeCommand s fun _ => hp]
  by_cases ho : o.length = 4
  · rw [encodeCommand_of_length ho, commandFrame, LE32_eq, if_neg (not_not_intro ho)]
    rfl
  · rw [encodeCommand_of_length_ne ho, if_pos ho]
    rfl

/-! ## What a step of the session shows on the result port -/

variable (s)

theorem State.sayGoodbye_result : s.sayGoodbye.result = s.result := by
  cases h : s.nextReply.ioError
  · rw [State.sayGoodbye_ok h, State.read_result, State.write_result]
  · rw [State.sayGoodbye_error h, State.write_result]

/-- The port goes on showing what ENC built, whether or not the put succeeds. -/
theorem State.sendCommand_result (b : Bytes) : (s.sendCommand b).result = s.result := by
  cases h : s.nextReply.ioError
  · rw [State.sendCommand_ok h]
    rfl
  · rw [State.sendCommand_error h, State.ioFailure_result]
    rfl

theorem State.onDecoded_result (r : DetResult) : (s.onDecoded r).result = s.result := by
  unfold State.onDecoded
  cases s.session
  case streaming => cases r <;> rfl
  all_goals rfl

theorem State.deliver_result (ph : Phase) (r : DetResult) : (s.deliver ph r).result = some (.det r) := by
  unfold State.deliver
  split
  · rw [State.onDecoded_result, State.answer_result]
  · rfl

theorem State.onShortHeader_result (b : Bytes) : (s.onShortHeader b).result = none := rfl

variable {s}

theorem State.built_result_ne {tag payload : Bytes} (h : tag.length = 4) :
    (s.built tag payload).result ≠ some (.enc .invalidOpcode) := by
  rw [State.built_result, encodeCommand_of_length h]
  nofun

/-- A header without a target shows `None`; one with a target leaves the port clear. -/
theorem State.testHeader_result (h : Header) :
    (s.testHeader h).result = if h.noTarget then some (.det .none) else none := by
  cases hf : h.noTarget
  · rw [State.testHeader_target hf]
    rfl
  · rw [State.testHeader_noTarget hf, State.deliver_result]
    rfl

/-- The opcodes of the five commands have four bytes, and a received frame is read by another unit, so no frame's step shows
`InvalidOpcode`. -/
theorem exec_frame_result {i : Instr} (hi : i.format ≠ none) (h : exec i s = .next t) :
    t.result ≠ some (.enc .invalidOpcode) := by
  cases i
  case init p =>
    obtain ⟨-, -, -, port, -, ⟨-, rfl⟩ | ⟨-, rfl⟩⟩ := execInit_eq_next.mp h
    · rw [State.sendCommand_result, State.enter_result]
      exact State.built_result_ne rfl
    · rw [State.failOpen, State.finish_result, State.answer_result]
      nofun
  case rspi p =>
    obtain ⟨-, rfl⟩ := execRspi_eq_next.mp h
    rw [State.sendCommand_result, State.enter_result]
    exact State.built_result_ne rfl
  case rrai p =>
    obtain ⟨-, rfl⟩ := execRrai_eq_next.mp h
    rw [State.sendCommand_result, State.enter_result]
    exact State.built_result_ne rfl
  case gnfd g =>
    obtain ⟨-, rfl⟩ := execGnfd_eq_next.mp h
    rw [State.sendCommand_result]
    exact State.built_result_ne rfl
  case gbye =>
    obtain ⟨-, rfl⟩ := execGbye_eq_next.mp h
    rw [State.sayGoodbye_result, State.enter_result]
    exact State.built_result_ne rfl
  case ackOk | ackNotAcknowledged =>
    cases h
    rw [State.judgeAck_result]
    nofun
  case hdrNoTarget | hdrTarget =>
    cases h
    rw [State.testHeader_result]
    split <;> nofun
  case pld =>
    cases h
    rw [State.deliver_result]
    nofun
  case encodeCommand | decodeAck | decodeDetection => exact absurd rfl hi

/-- The session runs frames only: the operations are run where they are presented to the block (70_reset_and_hazards.md R201). -/
theorem fetchSession_run_format {i : Instr} (h : fetchSession s = .run i t) : i.format ≠ none := by
  unfold fetchSession at h
  cases hp : s.phase <;> rw [hp] at h
  case ready =>
    obtain ⟨-, ⟨-, -, -, rfl⟩ | ⟨-, rfl⟩ | ⟨-, rfl⟩ | ⟨-, -, rfl⟩ | ⟨-, -, rfl⟩⟩ := fetchReady_eq_run.mp h <;> nofun
  all_goals
    obtain ⟨-, -, frame, -⟩ := fetchFrame_eq_run.mp h
    rw [decodeFrame_format frame]
    nofun

/-- Between exchanges the host's own step clears the port. -/
theorem fetchReady_host_result (h : fetchReady s = .host t) : t.result = none := by
  obtain ⟨-, -, -, rfl⟩ | ⟨-, rfl⟩ | ⟨-, rfl⟩ := fetchReady_eq_host.mp h <;> simp

/-- A take that fails clears the port; one whose bytes are no frame shows what `short` shows. -/
theorem fetchFrame_host_result {fmt : Format} {n : Nat} {short : Bytes → State → State}
    (short_result : ∀ b u, (short b u).result ≠ some (.enc .invalidOpcode)) (h : fetchFrame s fmt n short = .host t) :
    t.result ≠ some (.enc .invalidOpcode) := by
  obtain ⟨-, ⟨-, rfl⟩ | ⟨-, -, rfl⟩⟩ := fetchFrame_eq_host.mp h
  · rw [State.ioFailure_result]
    nofun
  · exact short_result _ _

/-- ENC takes no part in a step of the host's own. -/
theorem fetchSession_host_result (h : fetchSession s = .host t) : t.result ≠ some (.enc .invalidOpcode) := by
  unfold fetchSession at h
  cases hp : s.phase <;> rw [hp] at h
  case ready => simp [fetchReady_host_result h]
  case awaitAck => exact fetchFrame_host_result (fun b u => by simp [u.judgeAck_result b]) h
  case awaitHeader => exact fetchFrame_host_result (fun b u => by simp [u.onShortHeader_result b]) h
  case awaitPayload => exact fetchFrame_host_result (fun b u => by simp [u.deliver_result]) h

/-- Settles O2: ENC tests the length of the opcode alone, and no command of the session has an opcode of another length. -/
theorem invalidOpcodeIffWrongLength : Obligations.InvalidOpcodeIffWrongLength := by
  refine ⟨?wrong_length, ?only_then, ?session⟩
  case wrong_length =>
    intro o p s ho
    rw [exec_encodeCommand s fun len => absurd len ho, encodeCommand_of_length_ne ho, State.answer]
  case only_then =>
    intro o p s t h shows
    obtain ⟨-, rfl⟩ := execEncodeCommand_eq_next.mp h
    simpa [encodeCommand_eq_invalidOpcode] using shows
  case session =>
    intro s t idle h
    rw [step_eq_next, fetch_idle idle] at h
    obtain ⟨i, u, fetched, executed⟩ | own := h
    · exact exec_frame_result (fetchSession_run_format fetched) executed
    · exact fetchSession_host_result own

end Machine

end Sys2Proof

namespace Sys2Proof.Machine

variable {b : Bytes}

/-! # ACK -/

/-- 41_decode_ack.md R93, R94: nine bytes are judged by the status byte. -/
theorem decodeAck_of_length_eq (h : b.length = 9) :
    decodeAck b = if b[8]? = some 0 then .ok else .notAcknowledged := by
  obtain ⟨a, st, rfl⟩ := exists_ack_of_length h
  have status : (a.bytes ++ [st])[8]? = some st :=
    (congrArg ((a.bytes ++ [st])[·]?) a.length_eq.symm).trans List.getElem?_concat_length
  simp only [decodeAck_frame, status, Option.some_inj]

/-- 41_decode_ack.md R95: more bytes are a failure that carries the verdict of the status byte. -/
theorem decodeAck_of_length_gt (h : 9 < b.length) :
    decodeAck b = .excessBytes (if b[8]? = some 0 then .ok else .notAcknowledged) := by
  rw [decodeAck, if_neg (Nat.ne_zero_of_lt h), Config.ackLen, if_neg h.not_gt, if_neg h.ne']
  rfl

/-- 41_decode_ack.md R97: ACK's outcome is presented on the result port, and no state is read. -/
theorem exec_decodeAck (b : Bytes) (s : State) :
    exec (.decodeAck b) s = .next (s.answer (some (.ack (decodeAck b)))) := rfl

/-- Settles O11: the outcomes below nine bytes, at nine and above are three disjoint sets, and the length zero or the status
byte tells the two of a set apart. -/
theorem ackOutcomeConditions : Obligations.AckOutcomeConditions := by
  intro b s
  refine ⟨decodeAck b, exec_decodeAck b s, ?_⟩
  obtain short | nine | excess := lt_trichotomy b.length 9
  · rw [decodeAck_short short]
    grind
  · rw [decodeAck_of_length_eq nine]
    grind
  · rw [decodeAck_of_length_gt excess]
    grind

/-- Settles O10: the cases of R96 are ACK's outcomes below, at and above nine bytes. -/
theorem decodeAckCases : Obligations.DecodeAckCases := by
  intro b s
  rw [exec_decodeAck, State.answer]
  obtain short | nine | excess := lt_trichotomy b.length 9
  · rw [decodeAck_short short, if_pos (Nat.le_of_lt_succ short)]
  · rw [decodeAck_of_length_eq nine, nine]
    rfl
  · rw [decodeAck_of_length_gt excess, if_neg (Nat.ne_zero_of_lt excess), if_neg (Nat.lt_of_succ_lt excess).not_ge,
      if_neg excess.ne']

end Sys2Proof.Machine

namespace Sys2Proof

/-! # DET on a header and a payload -/

/-- 30_encoding.md R59: a flag of 2 or more announces a target. -/
theorem Header.noTarget_eq_false {h : Header} (flag : 2 ≤ (h.bytes.getD 4 0).toNat) : h.noTarget = false :=
  Bool.eq_false_iff.mpr fun no => absurd (h.noTarget_iff.mp no) (Nat.not_le.mpr flag)

/-- 30_encoding.md R61: eight bytes are a payload, its fields at their offsets. -/
theorem decodePld_of_length {b : Bytes} (h : b.length = 8) :
    decodePld b = .ok (.pld (le16At b 0) (le16At b 2) (le16At b 4) (le16At b 6)) := if_pos h

namespace Machine

open Sys2Proof.Safety

variable {s : State} {h : Header}

theorem exec_hdrTarget (h : Header) (s : State) : exec (.hdrTarget h) s = .next (s.testHeader h) := rfl

theorem exec_pld (d sp a m : Half) (s : State) :
    exec (.pld d sp a m) s = .next (s.deliver .awaitPayload (.some (targetOf Config.numerics d sp a m))) := rfl

theorem exec_decodeDetection_stream (h : Header) (s : State) :
    exec (.decodeDetection h .stream) s = detectFromStream h s := rfl

theorem exec_decodeDetection_reader (h : Header) (s : State) :
    exec (.decodeDetection h .reader) s = .next (detectFromReader h s) := rfl

/-! ## The header test -/

/-- Outside `Streaming` a result of DET only ends the exchange. -/
theorem State.onDecoded_not_streaming (h : s.session ≠ .streaming) (r : DetResult) : s.onDecoded r = s.setPhase .ready := by
  unfold State.onDecoded
  cases hs : s.session
  case streaming => exact absurd hs h
  all_goals rfl

/-- `None` changes the result port and, where the host awaited it, the place of the exchange; the caller is told while
streaming. -/
theorem State.deliver_none_cases (s : State) (p : Phase) : ∃ q,
    s.deliver p .none = { s with result := some (.det .none), phase := q } ∨
    s.deliver p .none =
      { s with result := some (.det .none), phase := q, trace := s.trace ++ [.handedNoTarget] } := by
  by_cases hp : s.phase = p
  case neg => exact ⟨s.phase, .inl (State.deliver_unawaited hp _)⟩
  rw [State.deliver_awaited hp]
  refine ⟨.ready, ?_⟩
  by_cases hs : s.session = .streaming
  · exact .inr (State.onDecoded_streaming (by simpa using hs) .none)
  · exact .inl (State.onDecoded_not_streaming (by simpa using hs) .none)

theorem detectFromStream_noTarget (no : h.noTarget = true) :
    detectFromStream h s = .next (s.deliver .awaitHeader .none) := if_pos no

theorem decodeDetection_noTarget (N : Numerics) (no : h.noTarget = true) (r : Reader) :
    decodeDetection N h r = (.none, r) := if_pos no

/-- Settles O14: without a target the stream's `None` is only delivered, the finite reader is handed back as it came, and
another header with the same flag is on the same side of the boundary. -/
theorem noTargetConsumesNothing : Obligations.NoTargetConsumesNothing := by
  intro h src s flag
  have no : h.noTarget = true := h.noTarget_iff.mpr flag
  refine ⟨?_, fun h' same => (headerFlagDecides h' h src s (by rw [same])).1⟩
  cases src
  case stream =>
    refine ⟨_, detectFromStream_noTarget no, ?_⟩
    obtain ⟨q, e | e⟩ := s.deliver_none_cases .awaitHeader
    · simp [e]
    · simp [e]
  case reader =>
    rw [exec_decodeDetection_reader, detectFromReader_eq, decodeDetection_noTarget _ no]
    exact ⟨_, rfl, rfl, rfl, rfl, rfl, rfl, rfl, .inl rfl⟩

/-- Settles O16: what DET's test of a header with a target leaves. -/
theorem targetHeaderAwaitsPayload : Obligations.TargetHeaderAwaitsPayload := by
  intro h s flag
  rw [exec_hdrTarget, State.testHeader_target (h.noTarget_eq_false flag)]
  refine ⟨fun awaited => ?_, fun unawaited => ?_⟩
  · rw [if_pos awaited]
  · rw [if_neg unawaited]

/-! ## A finite reader -/

/-- 42_decode_detection.md R103: after a full take DET cannot fail. -/
theorem detectionOf_of_length (N : Numerics) {b : Bytes} (h : b.length = 8) :
    detectionOf N b = .some (targetOf N (le16At b 0) (le16At b 2) (le16At b 4) (le16At b 6)) := by
  rw [detectionOf, decodePld_of_length h]

/-- 42_decode_detection.md R102: with a target DET makes one take of eight bytes. -/
theorem decodeDetection_target (N : Numerics) (yes : h.noTarget = false) (r : Reader) :
    decodeDetection N h r = (detectionOf N ((r.bytes.drop r.pos).take 8),
      { r with pos := r.pos + min 8 (r.bytes.length - r.pos) }) := by
  obtain ⟨bytes, after⟩ := r.take_spec 8
  rw [← bytes, ← after, decodeDetection, yes]
  rfl

/-- Settles O17: DET's one take, judged by whether all of its eight bytes were left. -/
theorem detectionFromReader : Obligations.DetectionFromReader := by
  intro h s flag
  have length : ((s.reader.bytes.drop s.reader.pos).take 8).length = min 8 (s.reader.bytes.length - s.reader.pos) := by
    simp
  refine ⟨detectionOf Config.numerics ((s.reader.bytes.drop s.reader.pos).take 8), ?_, fun few => ?_,
    fun enough => ⟨rfl, ?_⟩⟩
  · rw [exec_decodeDetection_reader, detectFromReader_eq, decodeDetection_target _ (h.noTarget_eq_false flag)]
  · exact detectionOf_other _ (by omega)
  · exact ⟨_, detectionOf_of_length _ (by omega)⟩

/-! ## The receive stream -/

theorem detectFromStream_closed (yes : h.noTarget = false) (closed : s.handle = none) :
    detectFromStream h s = .fault .transportNotOpen := by
  simp [detectFromStream, yes, closed]

theorem detectFromStream_failed (yes : h.noTarget = false) (opened : s.handle ≠ none)
    (fails : s.nextReply.ioError = true) : detectFromStream h s = .next ((s.read 8).2.answer none).ioFailure :=
  detectFromStream_eq_next.mpr (.inr ⟨yes, opened, .inl ⟨fails, rfl⟩⟩)

theorem detectFromStream_taken (yes : h.noTarget = false) (opened : s.handle ≠ none)
    (succeeds : s.nextReply.ioError = false) : detectFromStream h s = .next ((s.read 8).2.deliver .awaitHeader
      (detectionOf Config.numerics ((s.rx ++ s.nextReply.arrived).take 8))) :=
  detectFromStream_eq_next.mpr (.inr ⟨yes, opened, .inr ⟨succeeds, rfl⟩⟩)

/-- Whether or not a read fails, it uses up one answer of the oracle. -/
theorem State.read_nextReply (s : State) (n : Nat) : (s.read n).2.nextReply = s.useReply.nextReply := by
  unfold State.read
  cases s.nextReply.ioError <;> rfl

/-- 44_host_session.md R165, log 30: outside the four running states a failing primitive only ends the exchange. -/
theorem State.ioFailure_harmless (h : ¬Fragile s) : s.ioFailure = s.setPhase .ready := by
  unfold State.ioFailure
  cases hs : s.session
  case disconnected | shuttingDown => rfl
  all_goals exact absurd (by simp [Fragile, hs]) h

/-- 44_host_session.md R161: a read that fails in one of the four running states ends the session. -/
theorem State.read_ioFailure_ends (s : State) (n : Nat) (fragile : Fragile s) :
    ((s.read n).2.answer none).ioFailure.result = none ∧
    EndsInTransportError s ((s.read n).2.answer none).ioFailure (!s.useReply.nextReply.ioError) := by
  have running : Fragile ((s.read n).2.answer none) := by simpa [Fragile] using fragile
  have reply : ((s.read n).2.answer none).nextReply = s.useReply.nextReply := s.read_nextReply n
  obtain ⟨session, phase, baud, handle, port, framing, records, outcome, -, tx, reader, calls, result, -, last, -, -,
    payloads⟩ := ((s.read n).2.answer none).raiseTransportError_spec
  rw [reply] at tx
  rw [State.ioFailure_fatal running]
  exact ⟨result, by simp_all [EndsInTransportError]⟩

/-- Settles O18: the four ways the take of a detection on the receive stream can go. -/
theorem detectionFromStream : Obligations.DetectionFromStream := by
  intro h s flag
  have yes := h.noTarget_eq_false flag
  rw [exec_decodeDetection_stream]
  refine ⟨detectFromStream_closed yes, fun opened succeeds unawaited => ?_, fun opened fails fragile => ?_,
    fun opened fails sturdy => ?_⟩
  · rw [detectFromStream_taken yes opened succeeds, State.deliver_unawaited (by simpa using unawaited), State.answer]
  · exact ⟨_, detectFromStream_failed yes opened fails, s.read_ioFailure_ends 8 fragile⟩
  · rw [detectFromStream_failed yes opened fails, State.ioFailure_harmless (by simpa [Fragile] using sturdy)]
    rfl

/-! ## The two halves of a cycle's detection -/

/-- The step that takes the payload: DET's result of whatever bytes came is delivered. -/
theorem step_awaitPayload (idle : s.calls = []) (awaited : s.phase = .awaitPayload) (opened : s.handle ≠ none)
    (succeeds : s.nextReply.ioError = false) : step s = .next ((s.read 8).2.deliver .awaitPayload
      (detectionOf Config.numerics ((s.rx ++ s.nextReply.arrived).take 8))) := by
  have found := fetch_awaitPayload idle awaited
  by_cases full : ((s.rx ++ s.nextReply.arrived).take 8).length = 8
  · rw [fetchFrame_frame (f := .pld) opened succeeds (decodePld_of_length full)] at found
    rw [step_of_fetch_run found, exec_pld, detectionOf_of_length _ full]
  · rw [fetchFrame_short (f := .pld) opened succeeds (decodePld_error full)] at found
    exact step_of_fetch_host found

/-- The step that takes the payload where its read fails. -/
theorem step_awaitPayload_failed (idle : s.calls = []) (awaited : s.phase = .awaitPayload) (opened : s.handle ≠ none)
    (fails : s.nextReply.ioError = true) : step s = .next ((s.read 8).2.answer none).ioFailure :=
  step_of_fetch_host ((fetch_awaitPayload idle awaited).trans (fetchFrame_failed opened fails))

/-- A put neither reads nor writes the place of the exchange. -/
theorem State.write_setPhase (s : State) (p : Phase) (b : Bytes) :
    (s.setPhase p).write b = ((s.write b).1, (s.write b).2.setPhase p) := by
  cases hi : s.nextReply.ioError
  · rw [State.write_of_ok hi, State.write_of_ok (s := s.setPhase p) hi]
    rfl
  · rw [State.write_of_error hi, State.write_of_error (s := s.setPhase p) hi]
    rfl

/-- A take neither reads nor writes the place of the exchange. -/
theorem State.read_setPhase (s : State) (p : Phase) (n : Nat) :
    (s.setPhase p).read n = ((s.read n).1, (s.read n).2.setPhase p) := by
  cases hi : s.nextReply.ioError
  · rw [State.read_of_ok hi, State.read_of_ok (s := s.setPhase p) hi]
    rfl
  · rw [State.read_of_error hi, State.read_of_error (s := s.setPhase p) hi]
    rfl

theorem State.sayGoodbye_setPhase (s : State) (p : Phase) : (s.setPhase p).sayGoodbye = s.sayGoodbye.setPhase p := by
  unfold State.sayGoodbye
  rw [State.write_setPhase]
  rcases s.write gbyeFrame with ⟨_ | _, u⟩
  · rfl
  · simp only [State.read_setPhase]

/-- 44_host_session.md R161: the fatal transition is the same from every place of the exchange. -/
theorem State.raiseTransportError_setPhase (s : State) (p : Phase) :
    (s.setPhase p).raiseTransportError = s.raiseTransportError := by
  unfold State.raiseTransportError
  rw [State.sayGoodbye_setPhase, State.setPhase_transportUsable]
  cases s.transportUsable <;> rfl

/-- A result of DET ends the cycle in the same way from every place of the exchange. -/
theorem State.onDecoded_setPhase (s : State) (p : Phase) (r : DetResult) : (s.setPhase p).onDecoded r = s.onDecoded r := by
  unfold State.onDecoded
  rw [State.setPhase_session]
  cases s.session
  case streaming => cases r <;> rfl
  all_goals rfl

/-- The end of a cycle is the same whether DET's result was awaited at `p` or at `q`. -/
theorem State.deliver_setPhase {q : Phase} (awaited : s.phase = q) (p : Phase) (r : DetResult) :
    (s.setPhase p).deliver p r = s.deliver q r := by
  rw [State.deliver_awaited (s.setPhase_phase p), State.deliver_awaited awaited]
  exact State.onDecoded_setPhase (s.answer _) p r

/-- Settles O21: both ways take the payload from the same stream, and the end of the cycle, or of the session, is the same from
either place of the exchange. -/
theorem headerThenPayloadIsWholeDetection : Obligations.HeaderThenPayloadIsWholeDetection := by
  intro h s flag idle streaming awaited opened
  have yes := h.noTarget_eq_false flag
  have header : s.testHeader h = (s.answer none).setPhase .awaitPayload := by
    rw [State.testHeader_target yes, if_pos awaited]
    rfl
  have taken : (((s.answer none).setPhase .awaitPayload).read 8).2 = ((s.read 8).2.answer none).setPhase .awaitPayload := by
    rw [State.read_setPhase, State.read_answer]
  rw [exec_hdrTarget, exec_decodeDetection_stream, header]
  cases hi : s.nextReply.ioError
  case false =>
    refine ⟨_, _, rfl, step_awaitPayload idle rfl opened hi, ?_⟩
    rw [detectFromStream_taken yes opened hi, taken, State.deliver_setPhase (q := .awaitHeader) (by simpa using awaited)]
    rfl
  case true =>
    have fragile : Fragile ((s.read 8).2.answer none) := by simp [Fragile, streaming]
    refine ⟨_, _, rfl, step_awaitPayload_failed idle rfl opened hi, ?_⟩
    have same : ((((s.read 8).2.answer none).setPhase .awaitPayload).answer none).ioFailure =
        ((s.read 8).2.answer none).ioFailure :=
      calc _ = (((s.read 8).2.answer none).setPhase .awaitPayload).raiseTransportError := State.ioFailure_fatal fragile
        _ = ((s.read 8).2.answer none).raiseTransportError := State.raiseTransportError_setPhase _ _
        _ = _ := (State.ioFailure_fatal fragile).symm
    rw [detectFromStream_failed yes opened hi, taken, same]

end Machine

end Sys2Proof

namespace Sys2Proof.F64

open Sys2Proof.Safety

/-! # Rounding to binary64 -/

/-! ## The grid of the finite data -/

/-- The number a sign bit stands for. -/
def sign (neg : Bool) : ℚ := if neg then -1 else 1

theorem sign_xor (b c : Bool) : sign (xor b c) = sign b * sign c := by cases b <;> cases c <;> simp [sign]

@[simp] theorem abs_sign (neg : Bool) : |sign neg| = 1 := by cases neg <;> simp [sign]

/-- The spacing of the data whose exponent field is `k + 1`, and of the subnormal ones where `k` is 0. -/
def ulp (k : Nat) : ℚ := 2 ^ ((k : Int) - 1074)

theorem ulp_pos (k : Nat) : 0 < ulp k := zpow_pos (by norm_num) _

theorem ulp_add (k i : Nat) : ulp (k + i) = 2 ^ i * ulp k := by
  unfold ulp
  rw [← zpow_natCast, ← zpow_add₀ (by norm_num)]
  congr 1
  push_cast
  ring

theorem toRat_eq_sign_mul (a : F64) : a.toRat = sign a.isNeg * (a.mant * 2 ^ a.expo) := mul_assoc _ _ _

theorem mant_lt (a : F64) : a.mant < 2 ^ 53 := by
  have : a.frac < 2 ^ 52 := Nat.mod_lt _ (by norm_num)
  unfold mant
  split <;> omega

/-- Every datum is a multiple, of less than 53 bits, of some spacing. -/
theorem exists_toRat_eq_mul_ulp (c : F64) : ∃ (z : Int) (j : Nat), |z| < 2 ^ 53 ∧ c.toRat = z * ulp j := by
  refine ⟨(if c.isNeg then -1 else 1) * c.mant, c.expField - 1, ?_, ?_⟩
  · have := mant_lt c
    split <;> simp <;> omega
  · have : c.expo = ((c.expField - 1 : Nat) : Int) - 1074 := by
      unfold expo
      split <;> omega
    rw [toRat_eq_sign_mul, this, ulp, sign]
    push_cast
    ring

/-- The datum `n` places above the origin of the spacing `ulp k`. -/
theorem toRat_pack_ulp {k n : Nat} (fits : k * 2 ^ 52 + n < 2 ^ 63) (upper : n ≤ 2 ^ 53) (lower : k = 0 ∨ 2 ^ 52 ≤ n) :
    (pack false (k * 2 ^ 52 + n)).toRat = n * ulp k := by
  rw [toRat_eq_sign_mul, isNeg_pack fits, sign, if_neg Bool.false_ne_true, one_mul, mant, expo, expField_pack fits,
    frac_pack fits]
  obtain subnormal | normal | carry : (k = 0 ∧ n < 2 ^ 52) ∨ (2 ^ 52 ≤ n ∧ n < 2 ^ 53) ∨ n = 2 ^ 53 := by omega
  · obtain ⟨rfl, hn⟩ := subnormal
    rw [show (0 * 2 ^ 52 + n) / 2 ^ 52 = 0 by omega, show (0 * 2 ^ 52 + n) % 2 ^ 52 = n by omega]
    rfl
  · rw [show (k * 2 ^ 52 + n) / 2 ^ 52 = k + 1 by omega, show (k * 2 ^ 52 + n) % 2 ^ 52 = n - 2 ^ 52 by omega,
      if_neg k.succ_ne_zero, if_neg k.succ_ne_zero, Nat.add_sub_cancel' normal.1, ulp]
    congr 2
    push_cast
    ring
  · rw [carry, show (k * 2 ^ 52 + 2 ^ 53) / 2 ^ 52 = k + 2 by omega, show (k * 2 ^ 52 + 2 ^ 53) % 2 ^ 52 = 0 by omega,
      if_neg (k + 1).succ_ne_zero, if_neg (k + 1).succ_ne_zero]
    have e : (((k + 2 : Nat) : Int) - 1075 = ((k + 1 : Nat) : Int) - 1074) := by push_cast; ring
    have u : (2 : ℚ) ^ (((k + 1 : Nat) : Int) - 1074) = 2 ^ 1 * ulp k := ulp_add k 1
    rw [e, u]
    push_cast
    ring

theorem isFinite_pack {neg : Bool} {mag : Nat} (h : mag ≤ infMag) : (pack neg mag).isFinite = true ↔ mag < infMag := by
  unfold infMag at *
  rw [isFinite, expField_pack (by omega), bne_iff_ne]
  omega

/-! ## Nearest data -/

theorem nearest_neg {x : ℚ} {r : F64} (h : Nearest x r) : Nearest (-x) r.neg := by
  refine ⟨by simpa using h.1, fun c hc => ?_⟩
  obtain ⟨d, rfl⟩ : ∃ d : F64, c = d.neg := ⟨c.neg, by simp⟩
  have flip (y : ℚ) : |-x - -y| = |x - y| := by rw [neg_sub_neg, abs_sub_comm]
  simpa only [toRat_neg, flip, frac_neg, ne_eq, neg_inj] using h.2 d (by simpa using hc)

/-- A datum is the only number nearest to it. -/
theorem toRat_eq_of_nearest {c r : F64} (h : Nearest c.toRat r) (hc : c.isFinite) : r.toRat = c.toRat := by
  have := (h.2 c hc).1
  rw [sub_self, abs_zero, abs_nonpos_iff, sub_eq_zero] at this
  exact this.symm

/-- `n` is `x` in units of `ulp k`, rounded to the nearest, ties to even; `k` is 0 or leaves 53 bits. -/
structure Rounded (x : ℚ) (k n : Nat) : Prop where
  close : |x - n * ulp k| ≤ ulp k / 2
  even : |x - n * ulp k| = ulp k / 2 → n % 2 = 0
  upper : n ≤ 2 ^ 53
  lower : k = 0 ∨ 2 ^ 52 * ulp k ≤ x

namespace Rounded

variable {x : ℚ} {k n : Nat}

/-- No other multiple of the spacing is as near, but for a tie. -/
theorem le_of_int (h : Rounded x k n) (z : Int) : |x - n * ulp k| ≤ |x - z * ulp k| ∧
    (z ≠ n → |x - n * ulp k| = |x - z * ulp k| → n % 2 = 0) := by
  by_cases hz : z = n
  · subst hz
    simp
  have far : ulp k ≤ |x - n * ulp k| + |x - z * ulp k| := by
    have one : (1 : ℚ) ≤ |(z : ℚ) - n| := by exact_mod_cast Int.one_le_abs (sub_ne_zero.mpr hz)
    calc ulp k ≤ |(z : ℚ) - n| * ulp k := le_mul_of_one_le_left (ulp_pos k).le one
      _ = |(z - n) * ulp k| := by rw [abs_mul, abs_of_pos (ulp_pos k)]
      _ = |(x - n * ulp k) - (x - z * ulp k)| := by
        congr 1
        ring
      _ ≤ _ := abs_sub _ _
  have close := h.close
  exact ⟨by linarith, fun _ tie => h.even (by linarith)⟩

theorem normal (h : Rounded x k n) : k = 0 ∨ 2 ^ 52 ≤ n := by
  refine h.lower.imp_right fun low => ?_
  by_contra lt
  have le : (n : ℚ) + 1 ≤ 2 ^ 52 := by exact_mod_cast (by omega : n + 1 ≤ 2 ^ 52)
  have := (abs_le.mp h.close).2
  nlinarith [ulp_pos k]

/-- The datum that packs a rounded number is the nearest one: a datum off the grid of `ulp k` lies below 53 bits of it. -/
theorem nearest (h : Rounded x k n) (finite : k * 2 ^ 52 + n < infMag) : Nearest x (pack false (k * 2 ^ 52 + n)) := by
  have fits : k * 2 ^ 52 + n < 2 ^ 63 := by unfold infMag at finite; omega
  refine ⟨(isFinite_pack finite.le).mpr finite, fun c _ => ?_⟩
  rw [toRat_pack_ulp fits h.upper h.normal, frac_pack fits]
  obtain ⟨z, j, hz, hc⟩ := exists_toRat_eq_mul_ulp c
  rw [hc]
  obtain on | off := Nat.lt_or_ge j k |>.symm
  · obtain ⟨i, rfl⟩ := Nat.exists_eq_add_of_le on
    have grid : (z : ℚ) * ulp (k + i) = ((z * 2 ^ i : Int) : ℚ) * ulp k := by
      rw [ulp_add]
      push_cast
      ring
    obtain ⟨close, even⟩ := h.le_of_int (z * 2 ^ i)
    rw [grid]
    have parity : (k * 2 ^ 52 + n) % 2 ^ 52 % 2 = n % 2 := by omega
    exact ⟨close, fun ne tie => parity.trans (even (fun e => ne (by rw [e]; rfl)) tie)⟩
  · obtain ⟨i, rfl⟩ := Nat.exists_eq_add_of_le (Nat.succ_le_of_lt off)
    have low : 2 ^ 52 * ulp (j + 1 + i) ≤ x := h.lower.resolve_left (by omega)
    have below : (z : ℚ) * ulp j < 2 ^ 52 * ulp (j + 1 + i) := by
      have hz' : (z : ℚ) < 2 ^ 53 := by exact_mod_cast (abs_lt.mp hz).2
      have one : (1 : ℚ) ≤ 2 ^ i := one_le_pow₀ (by norm_num)
      rw [ulp_add, ulp_add]
      nlinarith [ulp_pos j, mul_le_mul_of_nonneg_right one (ulp_pos j).le]
    have nearer : |x - n * ulp (j + 1 + i)| < |x - z * ulp j| :=
      calc |x - n * ulp (j + 1 + i)| ≤ |x - (2 ^ 52 : Int) * ulp (j + 1 + i)| := (h.le_of_int (2 ^ 52)).1
        _ = x - 2 ^ 52 * ulp (j + 1 + i) := by push_cast; exact abs_of_nonneg (by linarith)
        _ < x - z * ulp j := by linarith
        _ ≤ _ := le_abs_self _
    exact ⟨nearer.le, fun _ tie => absurd tie nearer.ne⟩

/-- A number below `2 ^ 1023` does not reach the infinity. -/
theorem lt_infMag (h : Rounded x k n) (hx : x < 2 ^ 1023) : k * 2 ^ 52 + n < infMag := by
  have small : k < 2045 := by
    rcases h.lower with rfl | low
    · norm_num
    have lt : (2 : ℚ) ^ ((k : Int) - 1022) < 2 ^ (1023 : Int) :=
      calc (2 : ℚ) ^ ((k : Int) - 1022) = 2 ^ 52 * ulp k := by
            rw [ulp, ← zpow_natCast, ← zpow_add₀ (by norm_num)]
            congr 1
            push_cast
            ring
        _ < 2 ^ (1023 : Int) := by exact_mod_cast low.trans_lt hx
    have := (zpow_lt_zpow_iff_right₀ (by norm_num : (1 : ℚ) < 2)).mp lt
    omega
  have := h.upper
  unfold infMag
  omega

end Rounded

/-! ## What the roundings of the model compute -/

theorem scaled_snd_pos (num : Nat) {den : Nat} (hden : 0 < den) (e : Int) : 0 < (scaled num den e).2 := by
  unfold scaled
  positivity

theorem scaled_div (num den : Nat) (e : Int) :
    ((scaled num den e).1 : ℚ) / (scaled num den e).2 = num / den / 2 ^ e := by
  unfold scaled
  obtain ⟨i, rfl | rfl⟩ := e.eq_nat_or_neg
  · simp [div_div]
  · simp [div_mul_eq_mul_div]

/-- A fraction rounded to an integer is within a half of it, and even at a half. -/
theorem nearestEven_close {num den : Nat} (hden : 0 < den) : |(num : ℚ) / den - nearestEven num den| ≤ 1 / 2 ∧
    (|(num : ℚ) / den - nearestEven num den| = 1 / 2 → nearestEven num den % 2 = 0) := by
  have pos : (0 : ℚ) < den := by exact_mod_cast hden
  have parts : (num : ℚ) / den = (num / den : Nat) + ((num % den : Nat) : ℚ) / den := by
    rw [div_eq_iff pos.ne', add_mul, div_mul_cancel₀ _ pos.ne']
    exact_mod_cast (Nat.div_add_mod' num den).symm
  have nonneg : 0 ≤ ((num % den : Nat) : ℚ) / den := by positivity
  have half : ((num % den : Nat) : ℚ) / den = 1 / 2 ↔ 2 * (num % den) = den := by
    rw [div_eq_div_iff pos.ne' two_ne_zero, one_mul, mul_comm]
    exact_mod_cast Iff.rfl
  unfold nearestEven
  rw [parts]
  dsimp only
  split
  case isTrue up =>
    have ge : 1 / 2 ≤ ((num % den : Nat) : ℚ) / den := by
      rw [div_le_div_iff₀ two_pos pos, one_mul]
      exact_mod_cast (by omega : den ≤ num % den * 2)
    have le : ((num % den : Nat) : ℚ) / den ≤ 1 := by
      rw [div_le_one pos]
      exact_mod_cast (Nat.mod_lt num hden).le
    push_cast
    rw [add_sub_add_left_eq_sub, abs_of_nonpos (by linarith)]
    refine ⟨by linarith, fun tie => ?_⟩
    have := half.mp (by linarith)
    omega
  case isFalse down =>
    have le : ((num % den : Nat) : ℚ) / den ≤ 1 / 2 := by
      rw [div_le_div_iff₀ pos two_pos, one_mul]
      exact_mod_cast (by omega : num % den * 2 ≤ den)
    rw [add_sub_cancel_left, abs_of_nonneg nonneg]
    refine ⟨le, fun tie => ?_⟩
    have := half.mp tie
    omega

theorem nearestEven_le (num den : Nat) : nearestEven num den ≤ num / den + 1 := by
  unfold nearestEven
  dsimp only
  split <;> omega

theorem two_pow_mul_zpow (i : Nat) (e : Int) : (2 : ℚ) ^ i * 2 ^ e = 2 ^ (i + e) := by
  rw [← zpow_natCast, ← zpow_add₀ two_ne_zero]

/-- The binary logarithms of numerator and denominator place their quotient between two powers of two apart by four. -/
theorem zpow_log2_bounds {num den : Nat} (hnum : 0 < num) (hden : 0 < den) :
    (2 : ℚ) ^ ((num.log2 : Int) - den.log2 - 1) ≤ num / den ∧ (num : ℚ) / den < 2 ^ ((num.log2 : Int) - den.log2 + 1) := by
  have num_lo : (2 : ℚ) ^ num.log2 ≤ num := by exact_mod_cast Nat.log2_self_le hnum.ne'
  have num_hi : (num : ℚ) < 2 ^ (num.log2 + 1) := by exact_mod_cast Nat.lt_log2_self
  have den_lo : (2 : ℚ) ^ den.log2 ≤ den := by exact_mod_cast Nat.log2_self_le hden.ne'
  have den_hi : (den : ℚ) < 2 ^ (den.log2 + 1) := by exact_mod_cast Nat.lt_log2_self
  have pos : (0 : ℚ) < den := by exact_mod_cast hden
  constructor
  · rw [show (num.log2 : Int) - den.log2 - 1 = num.log2 - ((den.log2 + 1 : Nat) : Int) by push_cast; ring,
      zpow_sub₀ two_ne_zero, zpow_natCast, zpow_natCast]
    gcongr
  · rw [show (num.log2 : Int) - den.log2 + 1 = ((num.log2 + 1 : Nat) : Int) - den.log2 by push_cast; ring,
      zpow_sub₀ two_ne_zero, zpow_natCast, zpow_natCast]
    exact div_lt_div₀ num_hi den_lo (by positivity) (by positivity)

/-- The last place leaves 53 bits before it, or is the smallest there is. -/
theorem lastPlace_spec {num den : Nat} (hnum : 0 < num) (hden : 0 < den) : -1074 ≤ lastPlace num den ∧
    (num : ℚ) / den < 2 ^ 53 * 2 ^ lastPlace num den ∧
    (lastPlace num den = -1074 ∨ 2 ^ 52 * 2 ^ lastPlace num den ≤ (num : ℚ) / den) := by
  obtain ⟨lo, hi⟩ := zpow_log2_bounds hnum hden
  unfold lastPlace
  dsimp only
  generalize hg : (num.log2 : Int) - den.log2 - 52 = guess
  have small : (scaled num den guess).1 / (scaled num den guess).2 < 2 ^ 52 ↔ (num : ℚ) / den < 2 ^ 52 * 2 ^ guess := by
    have pos := scaled_snd_pos num hden guess
    rw [Nat.div_lt_iff_lt_mul pos, ← div_lt_iff₀ (by positivity), ← scaled_div, div_lt_iff₀ (by exact_mod_cast pos)]
    exact_mod_cast Iff.rfl
  obtain ⟨e, place, below, above⟩ : ∃ e : Int,
      (if (scaled num den guess).1 / (scaled num den guess).2 < 2 ^ 52 then guess - 1 else guess) = e ∧
      2 ^ 52 * 2 ^ e ≤ (num : ℚ) / den ∧ (num : ℚ) / den < 2 ^ 53 * 2 ^ e := by
    by_cases lt : (scaled num den guess).1 / (scaled num den guess).2 < 2 ^ 52
    · refine ⟨guess - 1, if_pos lt, ?_, ?_⟩
      · rw [two_pow_mul_zpow]
        convert lo using 2
        push_cast
        omega
      · rw [small, two_pow_mul_zpow] at lt
        rw [two_pow_mul_zpow]
        convert lt using 2
        push_cast
        ring
    · refine ⟨guess, if_neg lt, not_lt.mp (small.not.mp lt), ?_⟩
      rw [two_pow_mul_zpow]
      convert hi using 2
      push_cast
      omega
  rw [place]
  refine ⟨le_max_left _ _, above.trans_le ?_, ?_⟩
  · gcongr
    · norm_num
    · exact le_max_right _ _
  · obtain least | own := max_choice (-1074) e
    · exact .inl least
    · rw [own]
      exact .inr below

/-- Every quotient is rounded to the grid of its last place. -/
theorem exists_rounded (num : Nat) {den : Nat} (hden : 0 < den) :
    ∃ k n, Rounded (num / den) k n ∧ roundMag num den = min infMag (k * 2 ^ 52 + n) := by
  obtain rfl | hnum := num.eq_zero_or_pos
  · refine ⟨0, 0, ⟨?_, fun _ => rfl, by norm_num, .inl rfl⟩, by simp [roundMag]⟩
    have := ulp_pos 0
    simp only [Nat.cast_zero, zero_div, zero_mul, sub_zero, abs_zero]
    positivity
  obtain ⟨least, upper, lower⟩ := lastPlace_spec hnum hden
  refine ⟨(lastPlace num den + 1074).toNat,
    nearestEven (scaled num den (lastPlace num den)).1 (scaled num den (lastPlace num den)).2, ?_, if_neg hnum.ne'⟩
  have unit : ulp (lastPlace num den + 1074).toNat = 2 ^ lastPlace num den := by
    rw [ulp]
    congr 1
    omega
  generalize lastPlace num den = e at *
  have pos := scaled_snd_pos num hden e
  have units := scaled_div num den e
  obtain ⟨close, even⟩ := nearestEven_close (num := (scaled num den e).1) pos
  have small := nearestEven_le (scaled num den e).1 (scaled num den e).2
  generalize nearestEven (scaled num den e).1 (scaled num den e).2 = n at *
  have e_pos : (0 : ℚ) < 2 ^ e := by positivity
  have scale : |(num : ℚ) / den - n * 2 ^ e| = |((scaled num den e).1 : ℚ) / (scaled num den e).2 - n| * 2 ^ e := by
    rw [units, ← abs_of_pos e_pos, ← abs_mul, abs_of_pos e_pos, sub_mul, div_mul_cancel₀ _ e_pos.ne']
  refine ⟨?_, fun tie => even ?_, ?_, ?_⟩
  · rw [unit, scale]
    nlinarith
  · rw [unit, scale] at tie
    nlinarith
  · have : (scaled num den e).1 / (scaled num den e).2 < 2 ^ 53 := by
      rw [Nat.div_lt_iff_lt_mul pos]
      have lt : ((scaled num den e).1 : ℚ) / (scaled num den e).2 < 2 ^ 53 := by
        rw [units, div_lt_iff₀ e_pos]
        exact upper
      rw [div_lt_iff₀ (by exact_mod_cast pos)] at lt
      exact_mod_cast lt
    omega
  · rw [unit]
    exact lower.imp_left (by omega)

/-- `r` is `x` rounded once, with the sign `neg` (00_scope.md section 6.3). -/
def IsRounding (x : ℚ) (neg : Bool) (r : F64) : Prop :=
  ∃ num den : Nat, 0 < den ∧ x = sign neg * (num / den) ∧ r = pack neg (roundMag num den)

namespace IsRounding

variable {x : ℚ} {neg : Bool} {r : F64}

theorem isNeg_eq (h : IsRounding x neg r) : r.isNeg = neg := by
  obtain ⟨num, den, hden, -, rfl⟩ := h
  obtain ⟨k, n, -, mag⟩ := exists_rounded num hden
  exact isNeg_pack (by unfold infMag at mag; omega)

/-- A number below `2 ^ 53` is rounded to a finite datum. -/
theorem isFinite (h : IsRounding x neg r) (hx : |x| < 2 ^ 53) : r.isFinite = true := by
  obtain ⟨num, den, hden, rfl, rfl⟩ := h
  obtain ⟨k, n, rounded, mag⟩ := exists_rounded num hden
  rw [abs_mul, abs_sign, one_mul] at hx
  have range : (2 : ℚ) ^ 53 < 2 ^ 1023 := pow_lt_pow_right₀ (by norm_num) (by norm_num)
  have lt := rounded.lt_infMag (((le_abs_self _).trans_lt hx).trans range)
  rw [mag, isFinite_pack (min_le_left _ _)]
  exact (min_le_right _ _).trans_lt lt

/-- A finite result is the nearest datum. -/
theorem nearest (h : IsRounding x neg r) (finite : r.isFinite) : Nearest x r := by
  obtain ⟨num, den, hden, rfl, rfl⟩ := h
  obtain ⟨k, n, rounded, mag⟩ := exists_rounded num hden
  rw [mag, isFinite_pack (min_le_left _ _), min_lt_iff, or_iff_right (lt_irrefl _)] at finite
  rw [mag, min_eq_right finite.le]
  have near := rounded.nearest finite
  cases neg
  · simpa [sign] using near
  · have flipped := nearest_neg near
    rw [neg_pack (by unfold infMag at finite; omega)] at flipped
    simpa [sign] using flipped

end IsRounding

/-! ## The operations -/

theorem isNaN_eq_false {a : F64} (h : a.isFinite) : a.isNaN = false := by
  simp_all [isFinite, isNaN]

theorem isInf_eq_false {a : F64} (h : a.isFinite) : a.isInf = false := by
  simp_all [isFinite, isInf]

theorem isRounding_scaled (neg : Bool) (num : Nat) {den : Nat} (hden : 0 < den) (e : Int) :
    IsRounding (sign neg * (num / den / 2 ^ e)) neg (pack neg (roundMag (scaled num den e).1 (scaled num den e).2)) :=
  ⟨_, _, scaled_snd_pos num hden e, by rw [scaled_div], rfl⟩

theorem sign_mul_natAbs (z : Int) : sign (z < 0) * z.natAbs = z := by
  rw [Nat.cast_natAbs]
  obtain neg | nonneg := lt_or_ge z 0
  · simp [sign, neg, abs_of_neg neg]
  · simp [sign, nonneg.not_gt, abs_of_nonneg nonneg]

theorem ofInt_isRounding (n : Int) : IsRounding n (n < 0) (ofInt n) :=
  ⟨n.natAbs, 1, Nat.one_pos, by rw [Nat.cast_one, div_one, sign_mul_natAbs], rfl⟩

/-- 00_scope.md section 6.3: `fmul` rounds the exact product. -/
theorem mul_isRounding {a b : F64} (ha : a.isFinite) (hb : b.isFinite) :
    IsRounding (a.toRat * b.toRat) (xor a.isNeg b.isNeg) (mul a b) := by
  have value : a.toRat * b.toRat = sign (xor a.isNeg b.isNeg) *
      ((a.mant * b.mant : Nat) / (1 : Nat) / 2 ^ (-(a.expo + b.expo))) := by
    rw [zpow_neg, div_inv_eq_mul, zpow_add₀ two_ne_zero, sign_xor, toRat_eq_sign_mul, toRat_eq_sign_mul]
    push_cast
    ring
  rw [value, mul]
  simp only [isNaN_eq_false, isInf_eq_false, ha, hb, Bool.or_self, Bool.false_eq_true, if_false]
  exact isRounding_scaled _ _ Nat.one_pos _

theorem isZero_eq_false {a : F64} (h : a.toRat ≠ 0) : a.isZero = false := by
  refine Bool.eq_false_iff.mpr fun zero => h ?_
  simp only [isZero, Bool.and_eq_true, beq_iff_eq] at zero
  rw [toRat_eq_sign_mul, mant, if_pos zero.1, zero.2]
  simp

theorem mant_pos {a : F64} (h : a.toRat ≠ 0) : 0 < a.mant := by
  refine Nat.pos_of_ne_zero fun zero => h ?_
  rw [toRat_eq_sign_mul, zero]
  simp

/-- 00_scope.md section 6.3: `fdiv` rounds the exact quotient. -/
theorem div_isRounding {a b : F64} (ha : a.isFinite) (hb : b.isFinite) (h : b.toRat ≠ 0) :
    IsRounding (a.toRat / b.toRat) (xor a.isNeg b.isNeg) (div a b) := by
  have value : a.toRat / b.toRat = sign (xor a.isNeg b.isNeg) * (a.mant / b.mant / 2 ^ (-(a.expo - b.expo))) := by
    have own : (sign b.isNeg)⁻¹ = sign b.isNeg := by cases b.isNeg <;> norm_num [sign]
    rw [zpow_neg, zpow_sub₀ two_ne_zero, sign_xor, toRat_eq_sign_mul, toRat_eq_sign_mul, mul_div_mul_comm,
      div_eq_mul_inv (sign a.isNeg), own, mul_div_mul_comm, div_inv_eq_mul]
  rw [value, div]
  simp only [isNaN_eq_false, isInf_eq_false, isZero_eq_false h, ha, hb, Bool.or_self, Bool.false_eq_true, if_false]
  exact isRounding_scaled _ _ (mant_pos h) _

/-- Settles O23: both operations round their exact result once. -/
theorem productAndQuotientCorrectlyRounded : Obligations.ProductAndQuotientCorrectlyRounded :=
  ⟨fun _ _ ha hb finite => ⟨(mul_isRounding ha hb).nearest finite, (mul_isRounding ha hb).isNeg_eq⟩,
    fun _ _ ha hb h finite => ⟨(div_isRounding ha hb h).nearest finite, (div_isRounding ha hb h).isNeg_eq⟩⟩

/-! ## Exact results -/

/-- There is a datum for every number of 53 bits and up to 53 places. -/
theorem exists_toRat_eq_div {z : Int} (hz : |z| < 2 ^ 53) {j : Nat} (hj : j ≤ 53) :
    ∃ c : F64, c.isFinite ∧ c.toRat = z / 2 ^ j := by
  have small : z.natAbs < 2 ^ 53 := by rw [Int.abs_eq_natAbs] at hz; exact_mod_cast hz
  refine ⟨_, isFinite_grid (neg := z < 0) small hj, ?_⟩
  rw [toRat_grid small hj, ← sign, ← mul_div_assoc, sign_mul_natAbs]

/-- A datum nearest to such a number is equal to it. -/
theorem toRat_eq_div_of_nearest {z : Int} {j : Nat} {r : F64} (h : Nearest (z / 2 ^ j) r) (hz : |z| < 2 ^ 53)
    (hj : j ≤ 53) : r.toRat = z / 2 ^ j := by
  obtain ⟨c, finite, value⟩ := exists_toRat_eq_div hz hj
  rw [← value] at h ⊢
  exact toRat_eq_of_nearest h finite

/-- 00_scope.md section 6.3: the conversion of an integer of 53 bits is exact. -/
theorem ofInt_exact {n : Int} (h : |n| < 2 ^ 53) : (ofInt n).isFinite = true ∧ (ofInt n).toRat = n := by
  have finite := (ofInt_isRounding n).isFinite (by exact_mod_cast h)
  have near := (ofInt_isRounding n).nearest finite
  rw [← div_one (n : ℚ), ← pow_zero 2] at near ⊢
  exact ⟨finite, toRat_eq_div_of_nearest near h (by norm_num)⟩

end Sys2Proof.F64

namespace Sys2Proof

open Sys2Proof.Safety

/-! ## The direct fields of a Target -/

/-- 42_decode_detection.md R104, R107: an unsigned field is exact. -/
theorem unsignedField_exact (v : Half) : (unsignedField v).isFinite = true ∧ (unsignedField v).toRat = v.toNat := by
  have := v.isLt
  exact F64.ofInt_exact (n := zext16 v) (by rw [zext16, Nat.abs_cast]; omega)

theorem abs_toInt_le (v : Half) : |v.toInt| ≤ 2 ^ 15 := by
  obtain ⟨lo, hi⟩ := sext16_bounds v
  rw [sext16_eq_toInt] at lo hi
  exact abs_le.mpr ⟨lo, by omega⟩

/-- 42_decode_detection.md R105, R106: a signed field is the datum nearest to its hundredth. -/
theorem hundredth_nearest (v : Half) : Nearest ((v.toInt : ℚ) / 100) (F64.div (F64.ofInt (sext16 v)) (F64.ofInt 100)) := by
  have small := abs_toInt_le v
  rw [sext16_eq_toInt]
  obtain ⟨vf, vr⟩ := F64.ofInt_exact (n := v.toInt) (small.trans_lt (by norm_num))
  obtain ⟨cf, cr⟩ := F64.ofInt_exact (n := 100) (by norm_num)
  have rounding := F64.div_isRounding vf cf (by rw [cr]; norm_num)
  rw [vr, cr, Int.cast_ofNat] at rounding
  refine rounding.nearest (rounding.isFinite ?_)
  rw [abs_div, abs_of_pos (by norm_num : (0 : ℚ) < 100), div_lt_iff₀ (by norm_num)]
  calc |(v.toInt : ℚ)| ≤ 2 ^ 15 := by exact_mod_cast small
    _ < 2 ^ 53 * 100 := by norm_num

/-- Settles O24: integers are converted exactly, and the two signed fields are the quotient by 100. -/
theorem fieldValues : Obligations.FieldValues :=
  ⟨unsignedField_exact, fun v => ⟨hundredth_nearest v, hundredth_nearest v⟩, by decide, by decide⟩

end Sys2Proof

namespace Sys2Proof

open Sys2Proof.Safety

/-! # The accuracy of the projection -/

namespace F64

/-! ## How close a rounding is -/

/-- A rounding to 53 bits, `j` places of them, errs by half a place at most. -/
theorem nearest_close {x : ℚ} {r : F64} (h : Nearest x r) {j : Nat} (hj : j ≤ 53) (hx : |x| * 2 ^ j ≤ 2 ^ 53 - 1) :
    |r.toRat - x| ≤ 1 / 2 ^ (j + 1) := by
  have pos : (0 : ℚ) < 2 ^ j := by positivity
  have scale : |x * 2 ^ j| = |x| * 2 ^ j := by rw [abs_mul, abs_of_pos pos]
  have half := abs_sub_round (x * 2 ^ j)
  have small : |round (x * 2 ^ j)| < 2 ^ 53 := by
    have tri := abs_sub_abs_le_abs_sub ((round (x * 2 ^ j) : Int) : ℚ) (x * 2 ^ j)
    rw [abs_sub_comm, scale] at tri
    have : |((round (x * 2 ^ j) : Int) : ℚ)| < 2 ^ 53 := by linarith
    exact_mod_cast this
  obtain ⟨c, finite, value⟩ := exists_toRat_eq_div small hj
  calc |r.toRat - x| = |x - r.toRat| := abs_sub_comm _ _
    _ ≤ |x - c.toRat| := (h.2 c finite).1
    _ = |x * 2 ^ j - round (x * 2 ^ j)| / 2 ^ j := by
      rw [value, ← abs_of_pos pos, ← abs_div, abs_of_pos pos, sub_div, mul_div_cancel_right₀ _ pos.ne']
    _ ≤ 1 / 2 / 2 ^ j := by gcongr
    _ = 1 / 2 ^ (j + 1) := by rw [div_div, pow_succ, mul_comm]

/-- A finite product of which 53 bits have `j` places. -/
theorem mul_close {a b : F64} (ha : a.isFinite) (hb : b.isFinite) {j : Nat} (hj : j ≤ 53)
    (h : |a.toRat * b.toRat| * 2 ^ j ≤ 2 ^ 53 - 1) :
    (mul a b).isFinite ∧ |((mul a b).toRat : ℝ) - a.toRat * b.toRat| ≤ 1 / 2 ^ (j + 1) := by
  have rounding := mul_isRounding ha hb
  have small : |a.toRat * b.toRat| < 2 ^ 53 := by
    refine (le_mul_of_one_le_right (abs_nonneg _) (one_le_pow₀ one_le_two : (1 : ℚ) ≤ 2 ^ j)).trans_lt (h.trans_lt ?_)
    norm_num
  have finite := rounding.isFinite small
  have close := (Rat.cast_le (K := ℝ)).mpr (nearest_close (rounding.nearest finite) hj h)
  push_cast at close
  exact ⟨finite, close⟩

/-! ## Magnitudes -/

theorem abs_eq_of_not_isNeg {a : F64} (h : a.isNeg = false) : a.abs = a := by
  rw [isNeg_eq, decide_eq_false_iff_not, not_le] at h
  exact BitVec.eq_of_toNat_eq ((toNat_abs a).trans (Nat.mod_eq_of_lt h))

/-- A datum without a sign bit, or the negation of one. -/
theorem exists_eq_or_eq_neg (a : F64) : ∃ m : F64, m.isNeg = false ∧ a.abs = m ∧ (a = m ∨ a = m.neg) := by
  cases h : a.isNeg
  · exact ⟨a, h, abs_eq_of_not_isNeg h, .inl rfl⟩
  · have h' : a.neg.isNeg = false := by simp [h]
    exact ⟨a.neg, h', by rw [← abs_neg, abs_eq_of_not_isNeg h'], .inr (by simp)⟩

theorem toRat_one : one.toRat = 1 := by
  rw [toRat_eq_sign_mul, show one.isNeg = false by decide, show one.mant = 2 ^ 52 by decide,
    show one.expo = -52 by decide]
  norm_num [sign]

end F64

namespace Numerics

/-! ## Odd functions -/

theorem oddOf_neg (f : F64 → F64) (a : F64) : oddOf f a.neg = (oddOf f a).neg := by
  unfold oddOf
  simp only [F64.abs_neg, F64.isNeg_neg]
  cases a.isNeg <;> simp

/-- What holds at zero and of `f` on data without a sign bit, and is kept by negation, holds of the odd function. -/
theorem oddOf_induction {f : F64 → F64} {Q : F64 → F64 → Prop} (zero : Q F64.zero F64.zero)
    (pos : ∀ m : F64, m.isNeg = false → Q m (f m)) (neg : ∀ a v : F64, Q a v → Q a.neg v.neg) (a : F64) :
    Q a (oddOf f a) := by
  have magnitude (m : F64) (h : m.isNeg = false) : Q m (oddOf f m) := by
    simp only [oddOf, h, F64.abs_eq_of_not_isNeg h, Bool.false_eq_true, if_false]
    split
    case isTrue z => exact z ▸ zero
    case isFalse => exact pos m h
  obtain ⟨m, hm, -, rfl | rfl⟩ := a.exists_eq_or_eq_neg
  · exact magnitude a hm
  · rw [oddOf_neg]
    exact neg m _ (magnitude m hm)

/-! ## The machine's record -/

theorem toRat_piOver180 : piOver180.toRat = 5030569068109113 / 2 ^ 58 := by
  rw [F64.toRat_eq_sign_mul, show piOver180.isNeg = false by decide, show piOver180.mant = 5030569068109113 by decide,
    show piOver180.expo = -58 by decide]
  norm_num [F64.sign]

/-- `PI_OVER_180` is the constant to 59 places. -/
theorem piOver180_close : |(piOver180.toRat : ℝ) - Real.pi / 180| ≤ 1 / 2 ^ 59 := by
  have lo := Real.pi_gt_d20
  have hi := Real.pi_lt_d20
  rw [toRat_piOver180, abs_le]
  push_cast
  constructor <;> norm_num at * <;> linarith

theorem angleMax_le : angleMax ≤ 328 := by norm_num [angleMax, Config.angleDivisor]

/-- 42_decode_detection.md R108: one multiplication meets the bound. -/
theorem defaultRadians_close {a : F64} (ha : a.isFinite) (range : |a.toRat| ≤ angleMax) :
    (defaultRadians a).isFinite ∧
      |((defaultRadians a).toRat : ℝ) - (a.toRat : ℝ) * Real.pi / 180| ≤ (radiansEps : ℝ) := by
  have range' := range.trans angleMax_le
  have product : |a.toRat * piOver180.toRat| * 2 ^ 50 ≤ 2 ^ 53 - 1 := by
    rw [abs_mul, toRat_piOver180]
    norm_num
    linarith
  obtain ⟨finite, rounded⟩ : (defaultRadians a).isFinite ∧
      |((defaultRadians a).toRat : ℝ) - a.toRat * piOver180.toRat| ≤ 1 / 2 ^ 51 :=
    F64.mul_close ha (by decide) (by norm_num) product
  refine ⟨finite, ?_⟩
  have constant : |(a.toRat : ℝ) * piOver180.toRat - a.toRat * Real.pi / 180| ≤ 328 * (1 / 2 ^ 59) := by
    rw [mul_div_assoc, ← mul_sub, abs_mul]
    exact mul_le_mul (by exact_mod_cast range') piOver180_close (abs_nonneg _) (by norm_num)
  refine (abs_sub_le _ ((a.toRat : ℝ) * piOver180.toRat) _).trans ((add_le_add rounded constant).trans ?_)
  norm_num [radiansEps]

/-- 42_decode_detection.md R110 items 1 and 2 for a free value, where the series is that of a function within the unit
interval. -/
theorem within_close {series : ℚ → ℚ} {g : ℝ → ℝ} (unit : ∀ x, |g x| ≤ 1)
    (close : ∀ x : ℚ, |x| ≤ sincosRange → |(series x : ℝ) - g x| ≤ (seriesEps : ℝ)) (free : F64 → F64) {m : F64}
    (range : |m.toRat| ≤ sincosRange) : (within series free m).isFinite ∧ |(within series free m).toRat| ≤ 1 ∧
      |((within series free m).toRat : ℝ) - g m.toRat| ≤ ((Config.sincosEps + 2 * seriesEps : ℚ) : ℝ) := by
  have near := close _ range
  have bounded : |series m.toRat| ≤ 1 + seriesEps := by
    have : |(series m.toRat : ℝ)| ≤ 1 + (seriesEps : ℝ) := by
      have := abs_sub_abs_le_abs_sub (series m.toRat : ℝ) (g m.toRat)
      linarith [unit m.toRat]
    exact_mod_cast this
  obtain ⟨finite, le, nearer⟩ := within_spec free ((le_abs_self _).trans range) bounded
  refine ⟨finite, le, ?_⟩
  have nearer' : |((within series free m).toRat : ℝ) - (series m.toRat : ℝ)| ≤ ((Config.sincosEps + seriesEps : ℚ) : ℝ) := by
    exact_mod_cast nearer
  refine (abs_sub_le _ (series m.toRat : ℝ) _).trans ((add_le_add nearer' near).trans_eq ?_)
  push_cast
  ring

/-- What R110 items 1 and 2 ask at the operand `r` of the value `v`, with the machine's bound. -/
def CloseTo (g : ℝ → ℝ) (r v : F64) : Prop := r.isFinite → |r.toRat| ≤ sincosRange →
  v.isFinite ∧ |v.toRat| ≤ 1 ∧ |(v.toRat : ℝ) - g r.toRat| ≤ ((Config.sincosEps + 2 * seriesEps : ℚ) : ℝ)

theorem machine_sin_close (r : F64) : CloseTo Real.sin r (Config.numerics.sin r) := by
  refine oddOf_induction (Q := CloseTo Real.sin) ?zero (fun m _ _ range => ?pos) (fun a v h finite range => ?neg) r
  case zero =>
    intro _ _
    refine ⟨by decide, by simp, ?_⟩
    norm_num [Config.sincosEps, seriesEps]
  case pos => exact within_close Real.abs_sin_le_one (fun _ => sinSeries_close) _ range
  case neg =>
    obtain ⟨finite', bound, close⟩ := h (by simpa using finite) (by simpa using range)
    refine ⟨by simpa using finite', by simpa using bound, ?_⟩
    rwa [F64.toRat_neg, F64.toRat_neg, Rat.cast_neg, Rat.cast_neg, Real.sin_neg, neg_sub_neg, abs_sub_comm]

theorem machine_cos_close (r : F64) : CloseTo Real.cos r (Config.numerics.cos r) := by
  intro finite range
  obtain ⟨m, -, abs, value⟩ := r.exists_eq_or_eq_neg
  have same : |m.toRat| = |r.toRat| ∧ Real.cos m.toRat = Real.cos r.toRat := by
    obtain rfl | rfl := value <;> simp
  simp only [Config.numerics, abs]
  split
  case isTrue zero =>
    refine ⟨by decide, by simp [F64.toRat_one], ?_⟩
    rw [← same.2, zero]
    norm_num [F64.toRat_one, Config.sincosEps, seriesEps]
  case isFalse =>
    rw [← same.2]
    exact within_close Real.abs_cos_le_one (fun _ => cosSeries_close) _ (same.1 ▸ range)

theorem machine_admissible : Config.numerics.Admissible (Config.sincosEps + 2 * seriesEps) where
  radians_zero := by decide
  radians_odd a _ := oddOf_neg _ a
  radians_close a := by
    refine oddOf_induction (Q := fun a v => a.isFinite → |a.toRat| ≤ angleMax → v.isFinite ∧
      |(v.toRat : ℝ) - (a.toRat : ℝ) * Real.pi / 180| ≤ (radiansEps : ℝ)) ?zero (fun m _ => defaultRadians_close)
      (fun a v h finite range => ?neg) a
    case zero =>
      intro _ _
      refine ⟨by decide, ?_⟩
      norm_num [radiansEps]
    case neg =>
      obtain ⟨finite', close⟩ := h (by simpa using finite) (by simpa using range)
      refine ⟨by simpa using finite', ?_⟩
      rwa [F64.toRat_neg, F64.toRat_neg, Rat.cast_neg, Rat.cast_neg, neg_mul, neg_div, neg_sub_neg, abs_sub_comm]
  sin_close r finite range := by
    obtain ⟨finite, -, close⟩ := machine_sin_close r finite range
    exact ⟨finite, close⟩
  cos_close r finite range := by
    obtain ⟨finite, -, close⟩ := machine_cos_close r finite range
    exact ⟨finite, close⟩
  sin_bound r finite range := by
    obtain ⟨-, bound, -⟩ := machine_sin_close r finite range
    exact bound
  cos_bound r finite range := by
    obtain ⟨-, bound, -⟩ := machine_cos_close r finite range
    exact bound
  sin_zero := by decide
  cos_zero := by decide
  sin_odd r _ _ := oddOf_neg _ r
  cos_even r _ _ := by simp [Config.numerics]

end Numerics

/-! ## The projection under an admissible record -/

/-- 42_decode_detection.md R106: the range of the decoded angles. -/
theorem angleField_range (a : Half) : (angleField a).isFinite ∧ |(angleField a).toRat| ≤ Numerics.angleMax := by
  have near : Nearest ((a.toInt : ℚ) / 100) (angleField a) := hundredth_nearest a
  have raw : |(a.toInt : ℚ) / 100| ≤ 32768 / 100 := by
    rw [abs_div, abs_of_pos (by norm_num : (0 : ℚ) < 100)]
    gcongr
    exact_mod_cast abs_toInt_le a
  have close := F64.nearest_close near (j := 44) (by norm_num) (by linarith)
  refine ⟨near.1, ?_⟩
  have tri := abs_sub_abs_le_abs_sub (angleField a).toRat ((a.toInt : ℚ) / 100)
  calc |(angleField a).toRat| ≤ 32768 / 100 + 1 / 2 ^ 45 := by linarith
    _ ≤ Numerics.angleMax := by norm_num [Numerics.angleMax, Config.angleDivisor]

section
variable {N : Numerics} {eps : ℚ}

/-- 42_decode_detection.md R108: `RADIANS` of a decoded angle is an operand R110 speaks of. -/
theorem Numerics.Admissible.radians_range (h : N.Admissible eps) (a : Half) : (N.radians (angleField a)).isFinite ∧
    |(N.radians (angleField a)).toRat| ≤ Numerics.sincosRange ∧
    |((N.radians (angleField a)).toRat : ℝ) - ((angleField a).toRat : ℝ) * Real.pi / 180| ≤ 1 / 2 ^ 49 := by
  obtain ⟨finite, range⟩ := angleField_range a
  obtain ⟨rfinite, close⟩ := h.radians_close _ finite range
  have close' : |((N.radians (angleField a)).toRat : ℝ) - ((angleField a).toRat : ℝ) * Real.pi / 180| ≤ 1 / 2 ^ 49 :=
    close.trans_eq (by norm_num [Numerics.radiansEps])
  refine ⟨rfinite, ?_, close'⟩
  have angle : |((angleField a).toRat : ℝ)| ≤ 327.6801 := by
    have : |(angleField a).toRat| ≤ 327.6801 := range.trans (by norm_num [Numerics.angleMax, Config.angleDivisor])
    have cast := (Rat.cast_le (K := ℝ)).mpr this
    push_cast at cast
    exact cast
  have exact : |((angleField a).toRat : ℝ) * Real.pi / 180| ≤ 327.6801 * 3.1416 / 180 := by
    rw [abs_div, abs_mul, abs_of_pos Real.pi_pos, abs_of_pos (by norm_num : (0 : ℝ) < 180)]
    gcongr
    exact Real.pi_lt_d4.le
  have tri := abs_sub_abs_le_abs_sub ((N.radians (angleField a)).toRat : ℝ) (((angleField a).toRat : ℝ) * Real.pi / 180)
  have bound : |((N.radians (angleField a)).toRat : ℝ)| ≤ ((572 / 100 : ℚ) : ℝ) := by
    push_cast
    linarith
  rw [Numerics.sincosRange_eq]
  exact_mod_cast bound

/-- 42_decode_detection.md R110: `SIN` of the converted angle against the sine of the angle. -/
theorem Numerics.Admissible.sin_angle_close (h : N.Admissible eps) (a : Half) :
    |((N.sin (N.radians (angleField a))).toRat : ℝ) - Real.sin (((angleField a).toRat : ℝ) * Real.pi / 180)| ≤
      eps + 1 / 2 ^ 49 := by
  obtain ⟨finite, range, close⟩ := h.radians_range a
  exact (abs_sub_le _ _ _).trans
    (add_le_add (h.sin_close _ finite range).2 ((Real.abs_sin_sub_sin_le _ _).trans close))

/-- 42_decode_detection.md R110: `COS` of the converted angle against the cosine of the angle. -/
theorem Numerics.Admissible.cos_angle_close (h : N.Admissible eps) (a : Half) :
    |((N.cos (N.radians (angleField a))).toRat : ℝ) - Real.cos (((angleField a).toRat : ℝ) * Real.pi / 180)| ≤
      eps + 1 / 2 ^ 49 := by
  obtain ⟨finite, range, close⟩ := h.radians_range a
  exact (abs_sub_le _ _ _).trans
    (add_le_add (h.cos_close _ finite range).2 ((Real.abs_cos_sub_cos_le _ _).trans close))

end

theorem unsignedField_range (v : Half) : |(unsignedField v).toRat| ≤ 65535 := by
  have := v.isLt
  rw [(unsignedField_exact v).2, Nat.abs_cast]
  exact_mod_cast (by omega : v.toNat ≤ 65535)

/-- A distance times a factor within the unit interval: the error of the factor and that of the rounding. -/
theorem distance_mul_close {d v : F64} {g delta : ℝ} (hd : d.isFinite) (hv : v.isFinite) (range : |d.toRat| ≤ 65535)
    (unit : |v.toRat| ≤ 1) (close : |(v.toRat : ℝ) - g| ≤ delta) :
    |((F64.mul d v).toRat : ℝ) - d.toRat * g| ≤ 65535 * delta + 1 / 2 ^ 37 := by
  have product : |d.toRat * v.toRat| * 2 ^ 36 ≤ 2 ^ 53 - 1 := by
    rw [abs_mul]
    nlinarith [mul_le_mul range unit (abs_nonneg _) (by norm_num)]
  obtain ⟨-, rounded⟩ := F64.mul_close hd hv (by norm_num) product
  have factor : |(d.toRat : ℝ) * v.toRat - d.toRat * g| ≤ 65535 * delta := by
    rw [← mul_sub, abs_mul]
    exact mul_le_mul (by exact_mod_cast range) close (abs_nonneg _) (by norm_num)
  linarith [abs_sub_le ((F64.mul d v).toRat : ℝ) (d.toRat * v.toRat) (d.toRat * g)]

section
variable {N : Numerics} {eps : ℚ} (h : N.Admissible eps) (d a : Half)
include h

theorem projectX_close : |((projectX N (unsignedField d) (angleField a)).toRat : ℝ) -
    -(d.toNat : ℝ) * Real.sin (((angleField a).toRat : ℝ) * Real.pi / 180)| ≤ 65535 * (eps + 1 / 2 ^ 49) + 1 / 2 ^ 37 := by
  obtain ⟨finite, value⟩ := unsignedField_exact d
  obtain ⟨rfinite, range, -⟩ := h.radians_range a
  have bound := unsignedField_range d
  have close := distance_mul_close (d := (unsignedField d).neg) (by simpa using finite) (h.sin_close _ rfinite range).1
    (by simpa using bound) (h.sin_bound _ rfinite range) (h.sin_angle_close a)
  rwa [F64.toRat_neg, value, Rat.cast_neg, Rat.cast_natCast] at close

theorem projectY_close : |((projectY N (unsignedField d) (angleField a)).toRat : ℝ) -
    (d.toNat : ℝ) * Real.cos (((angleField a).toRat : ℝ) * Real.pi / 180)| ≤ 65535 * (eps + 1 / 2 ^ 49) + 1 / 2 ^ 37 := by
  obtain ⟨finite, value⟩ := unsignedField_exact d
  obtain ⟨rfinite, range, -⟩ := h.radians_range a
  have close := distance_mul_close finite (h.cos_close _ rfinite range).1 (unsignedField_range d)
    (h.cos_bound _ rfinite range) (h.cos_angle_close a)
  rwa [value, Rat.cast_natCast] at close

end

/-- 42_decode_detection.md R110: the bound with the machine's record. -/
theorem projectionBound_lt :
    65535 * (Config.sincosEps + 2 * Numerics.seriesEps + 1 / 2 ^ 49) + 1 / 2 ^ 37 < (1 / 10 ^ 9 : ℚ) := by
  norm_num [Config.sincosEps, Numerics.seriesEps]

/-! ## The worked example of R119: a distance of 100 cm, a speed of -0.5 km/h, an angle of 1 degree -/

theorem sin_cos_one_degree :
    |Real.sin (Real.pi / 180) - 0.01745| < 6e-5 ∧ |Real.cos (Real.pi / 180) - 0.99985| < 1e-5 := by
  have lo : 0.01745 < Real.pi / 180 := by linarith [Real.pi_gt_d4]
  have hi : Real.pi / 180 < 0.01746 := by linarith [Real.pi_lt_d4]
  generalize Real.pi / 180 = x at *
  have pos : 0 < x := by linarith
  have one : |x| ≤ 1 := by rw [abs_of_pos pos]; linarith
  have sin := Real.sin_bound one
  have cos := Real.cos_bound one
  rw [abs_of_pos pos] at sin cos
  have sq_lo : 0.01745 ^ 2 ≤ x ^ 2 := by gcongr
  have sq_hi : x ^ 2 ≤ 0.01746 ^ 2 := by gcongr
  have cube : x ^ 3 ≤ 0.01746 ^ 3 := by gcongr
  have cube_pos : 0 ≤ x ^ 3 := by positivity
  have fourth : x ^ 4 ≤ 0.01746 ^ 4 := by gcongr
  have fifth : x ^ 5 ≤ 0.01746 ^ 5 := by gcongr
  rw [abs_le] at sin cos
  norm_num only at sq_lo sq_hi cube fourth fifth
  rw [abs_lt, abs_lt]
  refine ⟨⟨?_, ?_⟩, ?_, ?_⟩ <;> linarith

theorem exampleDistance : unsignedField (le16 0x64 0) = F64.ofInt 100 := by decide

theorem exampleSpeed : (speedField (le16 0xCE 0xFF)).toRat = -1 / 2 := by
  have near : Nearest (((le16 0xCE 0xFF).toInt : ℚ) / 100) (speedField (le16 0xCE 0xFF)) := hundredth_nearest _
  have half : ((le16 0xCE 0xFF).toInt : ℚ) / 100 = ((-1 : Int) : ℚ) / 2 ^ 1 := by
    rw [show (le16 0xCE 0xFF).toInt = -50 by decide]
    norm_num
  rw [half] at near
  simpa using F64.toRat_eq_div_of_nearest near (by norm_num) (by norm_num)

theorem exampleAngle : angleField (le16 0x64 0) = F64.one := by decide

theorem exampleMagnitude : unsignedField (le16 0x0A 0) = F64.ofInt 10 := by decide

theorem exampleRadians : Config.numerics.radians F64.one = 0x3F91DF46A2529D39 := by decide

/-- A coordinate the machine decodes is within 1e-2 of a figure `w` where the real projection `g` is closer to it. -/
theorem coordinate_close {x w : ℚ} {g : ℝ}
    (close : |(x : ℝ) - g| ≤ 65535 * (((Config.sincosEps + 2 * Numerics.seriesEps : ℚ) : ℝ) + 1 / 2 ^ 49) + 1 / 2 ^ 37)
    (figure : |g - w| < 9 / 1000) : |x - w| < 1 / 100 := by
  have tiny := (Rat.cast_lt (K := ℝ)).mpr projectionBound_lt
  push_cast at close tiny
  have real : |(x : ℝ) - w| < ((1 / 100 : ℚ) : ℝ) := by
    push_cast
    linarith [abs_sub_le (x : ℝ) g w]
  exact_mod_cast real

/-- The real projection of 100 cm at 1 degree. -/
theorem exampleFigures : |-(100 : ℝ) * Real.sin (Real.pi / 180) - ((-1745 / 1000 : ℚ) : ℝ)| < 9 / 1000 ∧
    |(100 : ℝ) * Real.cos (Real.pi / 180) - ((99985 / 1000 : ℚ) : ℝ)| < 9 / 1000 := by
  obtain ⟨sin, cos⟩ := sin_cos_one_degree
  push_cast
  rw [abs_lt] at *
  rw [abs_lt]
  refine ⟨⟨?_, ?_⟩, ?_, ?_⟩ <;> linarith

theorem exampleProjection :
    |(projectX Config.numerics (unsignedField (le16 0x64 0)) (angleField (le16 0x64 0))).toRat + 1745 / 1000| < 1 / 100 ∧
    |(projectY Config.numerics (unsignedField (le16 0x64 0)) (angleField (le16 0x64 0))).toRat - 99985 / 1000| < 1 / 100 := by
  have x := projectX_close Numerics.machine_admissible (le16 0x64 0) (le16 0x64 0)
  have y := projectY_close Numerics.machine_admissible (le16 0x64 0) (le16 0x64 0)
  have degree : ((angleField (le16 0x64 0)).toRat : ℝ) * Real.pi / 180 = Real.pi / 180 := by
    rw [exampleAngle, F64.toRat_one, Rat.cast_one, one_mul]
  rw [degree, show (le16 0x64 0).toNat = 100 by decide, Nat.cast_ofNat] at x y
  obtain ⟨sin, cos⟩ := exampleFigures
  refine ⟨?_, coordinate_close y cos⟩
  simpa [neg_div] using coordinate_close x sin

/-- Settles O28: the error of the converted angle passes through the sine and the cosine unmagnified, that of `SIN` or `COS`
is added, and the distance magnifies both; the product adds its own rounding. -/
theorem projectionAccuracy : Obligations.ProjectionAccuracy :=
  ⟨fun _ _ h d a => ⟨projectX_close h d a, projectY_close h d a⟩, Numerics.machine_admissible, projectionBound_lt,
    _, Machine.detectionOf_bytes _ _ _ _ _ _ _ _ _, exampleDistance, exampleSpeed, exampleAngle, exampleMagnitude,
    (congrArg _ exampleAngle).trans exampleRadians, exampleProjection⟩

end Sys2Proof

namespace Sys2Proof.Machine

variable {s : State}

/-! # When the five commands are refused -/

/-- 43_command_set.md R127: the state and order in which a running session sends a command. -/
theorem State.mayCommand_iff {st : SessionState} : s.mayCommand st = true ↔
    s.session = st ∧ s.phase = .ready ∧ s.handle ≠ none ∧ s.sessionOutcome = none := by
  simp [State.mayCommand, and_assoc, Option.isSome_iff_ne_none]

/-- What goes on where its guard holds is refused exactly where it does not. -/
theorem ite_next_eq_refused {guard : Prop} [Decidable guard] {t : State} {r : Refusal} :
    (if guard then .next t else .refused r : Host.Outcome State Fault Refusal) = .refused r ↔ ¬guard := by
  split <;> simp [*]

theorem execRspi_eq_refused {p : Value} : execRspi p s = .refused .commandOutOfSequence ↔
    ¬(s.session = .initializing ∧ s.phase = .ready ∧ s.handle ≠ none ∧ s.sessionOutcome = none) :=
  ite_next_eq_refused.trans (not_congr State.mayCommand_iff)

theorem execRrai_eq_refused {p : Value} : execRrai p s = .refused .commandOutOfSequence ↔
    ¬(s.session = .configuringSpeed ∧ s.phase = .ready ∧ s.handle ≠ none ∧ s.sessionOutcome = none) :=
  ite_next_eq_refused.trans (not_congr State.mayCommand_iff)

theorem execGnfd_eq_refused {g : Descriptor} : execGnfd g s = .refused .commandOutOfSequence ↔
    ¬(s.session = .streaming ∧ s.phase = .ready ∧ s.handle ≠ none ∧ s.sessionOutcome = none ∧
      s.cancelRequested = false) :=
  ite_next_eq_refused.trans
    (not_congr (by simp only [Bool.and_eq_true, State.mayCommand_iff, Bool.not_eq_true', and_assoc]))

theorem execGbye_eq_refused : execGbye s = .refused .commandOutOfSequence ↔
    ¬(s.session = .streaming ∧ s.phase = .ready ∧ s.handle ≠ none ∧ s.sessionOutcome = none ∧
      s.cancelRequested = true) :=
  ite_next_eq_refused.trans (not_congr (by simp only [Bool.and_eq_true, State.mayCommand_iff, and_assoc]))

/-- The end of the session is looked at first; before it, `INIT` needs a session not yet begun whose `Start` is pending. -/
theorem execInit_eq_refused {p : Value} {r : Refusal} : execInit p s = .refused r ↔
    s.sessionOutcome ≠ none ∧ .sessionFinished = r ∨
    s.sessionOutcome = none ∧ ¬(s.session = .disconnected ∧ s.phase = .ready ∧ s.startEvent ≠ none) ∧
      .commandOutOfSequence = r := by
  unfold execInit
  generalize ({ s with startEvent := none } : State) = u
  cases s.sessionOutcome
  case some => simp
  by_cases place : s.session = .disconnected ∧ s.phase = .ready
  case neg =>
    have outside : ¬(s.session = .disconnected ∧ s.phase = .ready ∧ s.startEvent ≠ none) :=
      fun ⟨hs, hp, _⟩ => place ⟨hs, hp⟩
    rw [if_neg place]
    simp [-not_and, outside]
  cases s.startEvent
  case none => simp [place]
  case some port =>
    rw [if_pos place]
    dsimp only
    rcases u.openPort port with ⟨_ | _, v⟩ <;> simp [place]

/-- Settles O34: each command is refused exactly where its guard fails; of `INIT`'s two refusals the end of the session
decides which. -/
theorem commandsRefusedOutOfSequence : Obligations.CommandsRefusedOutOfSequence := by
  intro p g s
  exact ⟨execInit_eq_refused.trans (by simp), execInit_eq_refused.trans (by simp),
    execRspi_eq_refused, execRrai_eq_refused, execGnfd_eq_refused, execGbye_eq_refused⟩

/-! # The step that awaits an ack -/

/-- The instruction nine bytes decode to as an ack has ACK judge those bytes. -/
theorem exec_of_decodeFrame_ack {b : Bytes} {i : Instr} (frame : decodeFrame .ack b = .ok i) (s : State) :
    exec i s = .next (s.judgeAck b) := by
  have nine : b.length = 9 := by
    by_contra other
    rw [decodeFrame, decodeAckFrame_error other] at frame
    cases frame
  obtain ⟨a, st, rfl⟩ := exists_ack_of_length nine
  rw [decodeFrame, decodeAckFrame_frame] at frame
  cases frame
  by_cases zero : st = 0
  · rw [if_pos zero, exec_ackOk, ackFrame_eq, zero]
  · rw [if_neg zero, exec_ackNotAcknowledged, ackFrame_eq]

/-- Settles O35: bytes that are an ack are judged by the instruction they decode to, a short take by the host's own step. -/
theorem stepJudgesTheTakenAck : Obligations.StepJudgesTheTakenAck := by
  intro s idle awaited opened succeeds
  have found := fetch_awaitAck idle awaited
  cases taken : decodeFrame .ack ((s.rx ++ s.nextReply.arrived).take 9)
  case ok i =>
    rw [fetchFrame_frame opened succeeds taken] at found
    rw [step_of_fetch_run found, exec_of_decodeFrame_ack taken]
  case error e =>
    rw [fetchFrame_short opened succeeds taken] at found
    exact step_of_fetch_host found

end Sys2Proof.Machine

namespace Sys2Proof.Machine

open Sys2Proof.Safety
open State (Extends)

/-! # The course of a session -/

/-! ## What the rules of the session speak of -/

/-- The fields that `SessionInv` and `TxInv` relate, besides the cancellation and the payloads (`State.Extends`). -/
structure View where
  session : SessionState
  phase : Phase
  baud : Option Nat
  handle : Option Nat
  port : Option Nat
  framing : Framing
  records : List Record
  sessionOutcome : Option SessionOutcome
  tx : Bytes

def State.view (s : State) : View where
  session := s.session
  phase := s.phase
  baud := s.baud
  handle := s.handle
  port := s.port
  framing := s.framing
  records := s.records
  sessionOutcome := s.sessionOutcome
  tx := s.tx

/-- The transport is open at the low rate (44_host_session.md R142). -/
def View.opened (v : View) (handle port : Nat) : View :=
  { v with handle := some handle, baud := some Config.baudInit, port := some port, framing := serialFraming }

/-- The transport is closed and the session over with outcome `o`, its last bytes `sent` (44_host_session.md R160). -/
def View.ended (v : View) (o : SessionOutcome) (sent : Bytes) : View :=
  { v with session := .disconnected, phase := .ready, handle := none, sessionOutcome := some o, tx := v.tx ++ sent }

/-- What the put of a `GBYE` whose failure is ignored adds to `tx` (44_host_session.md R159, R161). -/
def Farewell (sent : Bytes) : Prop := sent = [] ∨ sent = gbyeFrame

variable {s t u : State}

@[simp] theorem State.answer_view (r : Option PortResult) : (s.answer r).view = s.view := rfl
@[simp] theorem State.log_view (e : Effect) : (s.log e).view = s.view := rfl
@[simp] theorem State.built_view (tag payload : Bytes) : (s.built tag payload).view = s.view := rfl
@[simp] theorem State.enter_view (st : SessionState) : (s.enter st).view = { s.view with session := st } := rfl
@[simp] theorem State.setPhase_view (p : Phase) : (s.setPhase p).view = { s.view with phase := p } := rfl
@[simp] theorem State.finish_view (o : SessionOutcome) :
    (s.finish o).view = { s.view with session := .disconnected, phase := .ready, sessionOutcome := some o } := rfl
@[simp] theorem State.read_view (n : Nat) : (s.read n).2.view = s.view := by simp [State.view]

/-! ## What one step can do to it -/

/-- The changes after which the session goes on, or has not begun, the commands of `c` being put; `cancelled` says whether a
cancellation is requested. -/
inductive View.Continues (c : Payloads) (cancelled : Bool) (v : View) : View → Prop
  /-- An operation of the block, or a frame that is not awaited. -/
  | stays : v.Continues c cancelled v
  /-- Outside the running states an exchange is only left. -/
  | leaves : v.session = .disconnected ∨ v.session = .shuttingDown → v.Continues c cancelled { v with phase := .ready }
  /-- So it is where a detection is awaited outside `Streaming`. -/
  | strays (p : Phase) : v.phase = .awaitHeader ∨ v.phase = .awaitPayload → v.Continues c cancelled { v with phase := p }
  | init (handle port : Nat) : v.session = .disconnected → v.sessionOutcome = none →
      v.Continues c cancelled { v.opened handle port with
        session := .initializing, phase := .awaitAck, tx := v.tx ++ commandFrame Config.tagInit c.init.bytes }
  | raised : v.session = .initializing →
      v.Continues c cancelled { v with phase := .ready, baud := some Config.baudHigh }
  | rspi : v.session = .initializing → v.phase = .ready → v.Continues c cancelled { v with
      session := .configuringSpeed, phase := .awaitAck, tx := v.tx ++ commandFrame Config.tagRspi c.rspi.bytes }
  | rspiJudged : v.session = .configuringSpeed → v.Continues c cancelled { v with phase := .ready }
  | rrai : v.session = .configuringSpeed → v.Continues c cancelled { v with
      session := .configuringRange, phase := .awaitAck, tx := v.tx ++ commandFrame Config.tagRrai c.rrai.bytes }
  | rraiJudged : v.session = .configuringRange →
      v.Continues c cancelled { v with session := .streaming, phase := .ready }
  | gnfd : v.session = .streaming →
      v.Continues c cancelled { v with phase := .awaitAck, tx := v.tx ++ commandFrame Config.tagGnfd c.gnfd.bytes }
  /-- A step within a cycle, or its end. -/
  | cycle (p : Phase) (added : List Record) : v.session = .streaming →
      v.Continues c cancelled { v with phase := p, records := v.records ++ added }
  | gbye {sent : Bytes} : Farewell sent → v.session = .streaming → v.phase = .ready → cancelled = true →
      v.Continues c cancelled { v with session := .shuttingDown, tx := v.tx ++ sent }

/-- The changes with which the session ends. -/
inductive View.Ends (v : View) : SessionOutcome → View → Prop
  /-- `open` fails. -/
  | notOpened : v.session = .disconnected → v.sessionOutcome = none → v.phase = .ready →
      v.Ends .transportError { v with sessionOutcome := some .transportError }
  /-- The put of `INIT` fails. -/
  | initNotPut (handle port : Nat) {sent : Bytes} : Farewell sent → v.session = .disconnected → v.sessionOutcome = none →
      v.Ends .transportError ((v.opened handle port).ended .transportError sent)
  /-- A primitive fails in a running state. -/
  | failed {sent : Bytes} : Farewell sent → v.session ≠ .disconnected → v.session ≠ .shuttingDown →
      v.Ends .transportError (v.ended .transportError sent)
  | notInitialized : v.session = .initializing → v.phase = .awaitAck →
      v.Ends .initializationFailed (v.ended .initializationFailed [])
  | closed : v.session = .shuttingDown → v.Ends .normal (v.ended .normal [])

/-- From `s` to `t` the session goes on, or it ends with the records handed over. -/
def State.Moves (c : Payloads) (s t : State) : Prop :=
  s.view.Continues c t.cancelRequested t.view ∨
    ∃ o, s.view.Ends o t.view ∧ t.trace.getLast? = some (.handedOver s.view.records o)

variable {c : Payloads}

theorem State.Moves.stay (h : t.view = s.view) : s.Moves c t := .inl (h ▸ .stays)

theorem State.Moves.cycle (streaming : s.session = .streaming) {p : Phase} (h : t.view = { s.view with phase := p }) :
    s.Moves c t := by
  refine .inl (h ▸ ?_)
  simpa using View.Continues.cycle (c := c) (v := s.view) p [] streaming

/-- What happens before the change makes no difference where it leaves the view as it is. -/
theorem State.Moves.after (h : u.Moves c t) (same : u.view = s.view) : s.Moves c t := by
  rwa [State.Moves, same] at h

/-! ## What the operations do to it -/

theorem fragile_iff : Fragile s ↔ s.session ≠ .disconnected ∧ s.session ≠ .shuttingDown := by
  unfold Fragile
  cases s.session <;> simp

/-- 44_host_session.md R161: where it is fatal, the failure of a primitive ends the session. -/
theorem State.ioFailure_ends (h : Fragile s) : EndsInTransportError s s.ioFailure (!s.nextReply.ioError) := by
  obtain ⟨session, phase, baud, handle, port, framing, records, outcome, -, tx, reader, calls, -, -, last, -, -,
    payloads⟩ := s.raiseTransportError_spec
  rw [State.ioFailure_fatal h]
  exact ⟨session, phase, outcome, handle, records, baud, port, framing, payloads, calls, reader, tx, last⟩

/-- How the fatal end of a session looks to its rules. -/
theorem view_of_endsInTransportError {goodbye : Bool} (h : EndsInTransportError s t goodbye) :
    (∃ sent, Farewell sent ∧ t.view = s.view.ended .transportError sent) ∧
    t.trace.getLast? = some (.handedOver s.records .transportError) := by
  obtain ⟨session, phase, outcome, handle, records, baud, port, framing, -, -, -, tx, last⟩ := h
  refine ⟨?_, last⟩
  split at tx
  · exact ⟨gbyeFrame, .inr rfl, by simp_all [State.view, View.ended]⟩
  · exact ⟨[], .inl rfl, by simp_all [State.view, View.ended]⟩

theorem State.ioFailure_moves (s : State) : s.Moves c s.ioFailure := by
  by_cases h : Fragile s
  · obtain ⟨⟨sent, farewell, view⟩, last⟩ := view_of_endsInTransportError (State.ioFailure_ends h)
    obtain ⟨begun, running⟩ := fragile_iff.mp h
    exact .inr ⟨_, view ▸ .failed farewell begun running, last⟩
  · have outside : s.session = .disconnected ∨ s.session = .shuttingDown := by
      rw [fragile_iff] at h
      tauto
    rw [State.ioFailure_harmless h]
    exact .inl (.leaves outside)

/-- 44_host_session.md R161: the failed put of a command is fatal in the state entered with it. -/
theorem State.sendCommand_ends (fails : s.nextReply.ioError = true) (h : Fragile s) (frame : Bytes) :
    EndsInTransportError s (s.sendCommand frame) (!s.useReply.nextReply.ioError) := by
  rw [State.sendCommand_error fails]
  exact State.ioFailure_ends h

/-- 43_command_set.md R120: a command is put, in the state it enters, and its ack awaited; or its put is fatal. -/
theorem State.sendCommand_view {v : View} {st : SessionState} (entered : s.view = { v with session := st })
    (h : Fragile s) (frame : Bytes) :
    (s.sendCommand frame).view = { v with session := st, phase := .awaitAck, tx := v.tx ++ frame } ∨
    (∃ sent, Farewell sent ∧ (s.sendCommand frame).view = v.ended .transportError sent) ∧
      (s.sendCommand frame).trace.getLast? = some (.handedOver v.records .transportError) := by
  cases hi : s.nextReply.ioError
  case false =>
    rw [State.sendCommand_ok hi]
    exact .inl (congrArg (fun w : View => { w with phase := .awaitAck, tx := w.tx ++ frame }) entered)
  case true =>
    have ended := view_of_endsInTransportError (State.sendCommand_ends hi h frame)
    rw [entered, show s.records = v.records from congrArg View.records entered] at ended
    exact .inr ended

theorem State.setBaud_view_of_error (h : s.nextReply.ioError = true) (rate : Nat) :
    (s.setBaud rate).2.view = s.view := by
  rw [State.setBaud_of_error h]
  rfl

theorem State.raiseBaud_moves (h : s.session = .initializing) : s.Moves c s.raiseBaud := by
  cases hi : s.nextReply.ioError
  · rw [State.raiseBaud_ok hi]
    exact .inl (.raised h)
  · rw [State.raiseBaud_error hi]
    exact (State.ioFailure_moves _).after (State.setBaud_view_of_error (s := s.log _) hi _)

/-- Closing the transport and finishing ends the session, nothing put. -/
theorem State.closePort_finish_view (s : State) (o : SessionOutcome) :
    (s.closePort.finish o).view = s.view.ended o [] := by
  simp [State.view, View.ended]

theorem State.closePort_finish_trace (s : State) (o : SessionOutcome) :
    (s.closePort.finish o).trace.getLast? = some (.handedOver s.records o) := by
  simp

theorem State.onAck_moves (awaited : s.phase = .awaitAck) (o : AckOutcome) : s.Moves c (s.onAck o) := by
  cases hs : s.session
  case disconnected =>
    exact .inl (by simpa [State.onAck, hs] using .leaves (.inl hs))
  case shuttingDown =>
    exact .inl (by simpa [State.onAck, hs] using .leaves (.inr hs))
  case initializing =>
    by_cases ho : o = .ok
    · rw [ho, State.onAck_initializing_ok hs]
      exact State.raiseBaud_moves hs
    · rw [State.onAck_initializing_failed hs ho]
      exact .inr ⟨_, s.closePort_finish_view _ ▸ .notInitialized hs awaited, s.closePort_finish_trace _⟩
  case configuringSpeed =>
    rw [State.onAck_configuringSpeed hs]
    exact .inl (.rspiJudged hs)
  case configuringRange =>
    rw [State.onAck_configuringRange hs]
    exact .inl (.rraiJudged hs)
  case streaming =>
    rw [State.onAck_streaming hs]
    exact .cycle hs rfl

theorem State.judgeAck_moves (s : State) (b : Bytes) : s.Moves c (s.judgeAck b) := by
  by_cases h : s.phase = .awaitAck
  · rw [State.judgeAck_awaited h]
    exact (State.onAck_moves (s := s.answer (some (.ack (decodeAck b)))) h _).after rfl
  · rw [State.judgeAck_unawaited h]
    exact .stay rfl

theorem State.onDecoded_moves (awaited : s.phase = .awaitHeader ∨ s.phase = .awaitPayload) (r : DetResult) :
    s.Moves c (s.onDecoded r) := by
  by_cases hs : s.session = .streaming
  · rw [State.onDecoded_streaming hs]
    cases r
    case some t => exact .inl (.cycle _ [_] hs)
    all_goals exact .cycle hs rfl
  · rw [State.onDecoded_not_streaming hs]
    exact .inl (.strays _ awaited)

theorem State.deliver_moves {p : Phase} (hp : p = .awaitHeader ∨ p = .awaitPayload) (r : DetResult) :
    s.Moves c (s.deliver p r) := by
  by_cases h : s.phase = p
  · rw [State.deliver_awaited h]
    exact (State.onDecoded_moves (s := s.answer (some (.det r))) (h.symm ▸ hp) r).after rfl
  · rw [State.deliver_unawaited h]
    exact .stay rfl

theorem State.testHeader_moves (h : Header) : s.Moves c (s.testHeader h) := by
  cases hf : h.noTarget
  case true =>
    rw [State.testHeader_noTarget hf]
    exact State.deliver_moves (.inl rfl) _
  rw [State.testHeader_target hf]
  split
  next awaited => exact .inl (.strays _ (.inl awaited))
  next => exact .stay rfl

/-! ## What the instructions do to it -/

/-- Whether `i`, if it is a command, has the payload that `c` gives it. -/
def Payloads.Sends (c : Payloads) : Instr → Prop
  | .init p => p = c.init
  | .rspi p => p = c.rspi
  | .rrai p => p = c.rrai
  | .gnfd g => g = c.gnfd
  | _ => True

theorem Payloads.sends_of_format {i : Instr} (h : i.format ≠ some .cmd) (c : Payloads) : c.Sends i := by
  cases i
  case init | rspi | rrai | gnfd => exact absurd rfl h
  all_goals trivial

theorem Payloads.exists_sends (i : Instr) : ∃ c : Payloads, c.Sends i := by
  have any := State.reset.payloads
  cases i
  case init p => exact ⟨{ any with init := p }, rfl⟩
  case rspi p => exact ⟨{ any with rspi := p }, rfl⟩
  case rrai p => exact ⟨{ any with rrai := p }, rfl⟩
  case gnfd g => exact ⟨{ any with gnfd := g }, rfl⟩
  all_goals exact ⟨any, trivial⟩

theorem State.openPort_view_of_ok (h : s.nextReply.ioError = false) (port : Nat) :
    (s.openPort port).2.view = s.view.opened (Config.freshHandle s.useReply.draws) port := by
  rw [State.openPort_of_ok h]
  rfl

theorem State.openPort_view_of_error (h : s.nextReply.ioError = true) (port : Nat) :
    (s.openPort port).2.view = s.view := by
  rw [State.openPort_of_error h]
  rfl

theorem execInit_moves (h : execInit c.init s = .next t) : s.Moves c t := by
  obtain ⟨new, session, phase, port, -, ⟨opens, rfl⟩ | ⟨fails, rfl⟩⟩ := execInit_eq_next.mp h
  · have opened := State.openPort_view_of_ok (s := { s with startEvent := none }) opens port
    generalize (State.openPort _ port).2 = u at opened ⊢
    obtain put | ⟨⟨sent, farewell, ended⟩, last⟩ :=
      State.sendCommand_view (s := (u.built Config.tagInit c.init.bytes).enter .initializing)
        (congrArg (fun v : View => { v with session := .initializing }) opened) (.inl rfl)
        (commandFrame Config.tagInit c.init.bytes)
    · exact .inl (put ▸ .init _ port session new)
    · exact .inr ⟨_, ended ▸ .initNotPut _ port farewell session new, last⟩
  · rw [State.openPort_of_error (s := { s with startEvent := none }) fails]
    have ended : s.view.Ends .transportError { s.view with sessionOutcome := some .transportError } :=
      .notOpened session new phase
    refine .inr ⟨_, ?_, List.getLast?_concat⟩
    rw [State.failOpen, State.finish_view, ← session, ← phase]
    exact ended

/-- A command of a running session is put in the state it enters, or its put is fatal. -/
theorem State.sendCommand_moves {st : SessionState} (entered : u.view = { s.view with session := st }) (fragile : Fragile u)
    (running : Fragile s) {frame : Bytes} (goes : ∀ cancelled, s.view.Continues c cancelled
      { s.view with session := st, phase := .awaitAck, tx := s.tx ++ frame }) : s.Moves c (u.sendCommand frame) := by
  obtain ⟨begun, unfinished⟩ := fragile_iff.mp running
  obtain put | ⟨⟨sent, farewell, ended⟩, last⟩ := State.sendCommand_view entered fragile frame
  · exact .inl (put ▸ goes _)
  · exact .inr ⟨_, ended ▸ .failed farewell begun unfinished, last⟩

theorem execRspi_moves (h : execRspi c.rspi s = .next t) : s.Moves c t := by
  obtain ⟨may, rfl⟩ := execRspi_eq_next.mp h
  obtain ⟨session, phase, -, -⟩ := State.mayCommand_iff.mp may
  exact State.sendCommand_moves (u := (s.built Config.tagRspi c.rspi.bytes).enter .configuringSpeed) rfl
    (.inr (.inl rfl)) (.inl session) fun _ => .rspi session phase

theorem execRrai_moves (h : execRrai c.rrai s = .next t) : s.Moves c t := by
  obtain ⟨may, rfl⟩ := execRrai_eq_next.mp h
  obtain ⟨session, -, -, -⟩ := State.mayCommand_iff.mp may
  exact State.sendCommand_moves (u := (s.built Config.tagRrai c.rrai.bytes).enter .configuringRange) rfl
    (.inr (.inr (.inl rfl))) (.inr (.inl session)) fun _ => .rrai session

theorem execGnfd_moves (h : execGnfd c.gnfd s = .next t) : s.Moves c t := by
  obtain ⟨⟨may, -⟩, rfl⟩ := execGnfd_eq_next.mp h
  obtain ⟨session, -, -, -⟩ := State.mayCommand_iff.mp may
  have running : Fragile s := .inr (.inr (.inr session))
  exact State.sendCommand_moves (u := s.built Config.tagGnfd c.gnfd.bytes) (st := s.session) rfl running running
    fun _ => .gnfd session

/-- 44_host_session.md R159: whatever fails, saying goodbye does no more than put `GBYE`. -/
theorem State.sayGoodbye_view (s : State) :
    ∃ sent, Farewell sent ∧ s.sayGoodbye.view = { s.view with tx := s.tx ++ sent } := by
  obtain ⟨session, phase, baud, handle, port, framing, records, outcome, -, tx, -⟩ := s.sayGoodbye_spec
  split at tx
  · exact ⟨[], .inl rfl, by simp_all [State.view]⟩
  · exact ⟨gbyeFrame, .inr rfl, by simp_all [State.view]⟩

theorem execGbye_moves (h : execGbye s = .next t) : s.Moves c t := by
  obtain ⟨⟨may, cancelled⟩, rfl⟩ := execGbye_eq_next.mp h
  obtain ⟨session, phase, -, -⟩ := State.mayCommand_iff.mp may
  obtain ⟨sent, farewell, view⟩ := ((s.built Config.tagGbye []).enter .shuttingDown).sayGoodbye_view
  exact .inl (view ▸ .gbye farewell session phase ((Extends.sayGoodbye _).cancel cancelled))

theorem detectFromStream_moves {header : Header} (h : detectFromStream header s = .next t) : s.Moves c t := by
  obtain ⟨-, rfl⟩ | ⟨-, -, ⟨-, rfl⟩ | ⟨-, rfl⟩⟩ := detectFromStream_eq_next.mp h
  · exact State.deliver_moves (.inl rfl) _
  · exact (State.ioFailure_moves _).after (s.read_view 8)
  · exact (State.deliver_moves (.inl rfl) _).after (s.read_view 8)

theorem exec_moves {i : Instr} (sends : c.Sends i) (h : exec i s = .next t) : s.Moves c t := by
  cases i
  case init p =>
    cases sends
    exact execInit_moves h
  case rspi p =>
    cases sends
    exact execRspi_moves h
  case rrai p =>
    cases sends
    exact execRrai_moves h
  case gnfd g =>
    cases sends
    exact execGnfd_moves h
  case gbye => exact execGbye_moves h
  case ackOk | ackNotAcknowledged =>
    cases h
    exact State.judgeAck_moves s _
  case hdrNoTarget | hdrTarget =>
    cases h
    exact State.testHeader_moves _
  case pld =>
    cases h
    exact State.deliver_moves (.inr rfl) _
  case encodeCommand =>
    obtain ⟨-, rfl⟩ := execEncodeCommand_eq_next.mp h
    exact .stay rfl
  case decodeAck =>
    cases h
    exact .stay rfl
  case decodeDetection header source =>
    cases source
    case reader =>
      cases h
      exact .stay rfl
    case stream => exact detectFromStream_moves h

/-! ## What the host's own steps do to it -/

theorem fetchReady_moves (idle : s.phase = .ready) (h : fetchReady s = .host t) : s.Moves c t := by
  obtain ⟨-, -, -, rfl⟩ | ⟨session, rfl⟩ | ⟨session, rfl⟩ := fetchReady_eq_host.mp h
  · exact .stay rfl
  · have entered : ((s.answer none).enter .streaming).view = { s.view with session := .streaming, phase := .ready } := by
      rw [← idle]
      rfl
    exact .inl (entered ▸ .rraiJudged session)
  · exact .inr ⟨_, State.closePort_finish_view _ _ ▸ .closed session, State.closePort_finish_trace _ _⟩

theorem fetchFrame_moves {f : Format} {n : Nat} {short : Bytes → State → State}
    (short_moves : ∀ b, (s.read n).2.Moves c (short b (s.read n).2)) (h : fetchFrame s f n short = .host t) :
    s.Moves c t := by
  obtain ⟨-, ⟨-, rfl⟩ | ⟨-, -, rfl⟩⟩ := fetchFrame_eq_host.mp h
  · exact (State.ioFailure_moves _).after (s.read_view n)
  · exact (short_moves _).after (s.read_view n)

theorem State.onShortHeader_moves (awaited : s.phase = .awaitHeader) (b : Bytes) : s.Moves c (s.onShortHeader b) :=
  .inl (.strays .ready (.inl awaited))

theorem fetchSession_moves (h : fetchSession s = .host t) : s.Moves c t := by
  unfold fetchSession at h
  cases hp : s.phase <;> rw [hp] at h
  case ready => exact fetchReady_moves hp h
  case awaitAck => exact fetchFrame_moves (fun b => (s.read _).2.judgeAck_moves b) h
  case awaitHeader => exact fetchFrame_moves (fun b => State.onShortHeader_moves ((s.read_phase _).trans hp) b) h
  case awaitPayload => exact fetchFrame_moves (fun _ => State.deliver_moves (.inr rfl) _) h

/-- What is fetched to be executed leaves the session as it was, and sends its payloads. -/
theorem fetch_run_view {i : Instr} (h : fetch s = .run i u) : u.view = s.view ∧ s.payloads.Sends i := by
  cases hc : s.calls
  case cons call calls =>
    simp only [fetch, hc, Fetched.run.injEq] at h
    obtain ⟨rfl, rfl⟩ := h
    exact ⟨rfl, Payloads.sends_of_format (by cases call <;> nofun) _⟩
  rw [fetch_idle hc, fetchSession] at h
  cases hp : s.phase <;> rw [hp] at h
  case ready =>
    obtain ⟨rfl, ⟨-, -, -, rfl⟩ | ⟨-, rfl⟩ | ⟨-, rfl⟩ | ⟨-, -, rfl⟩ | ⟨-, -, rfl⟩⟩ := fetchReady_eq_run.mp h
    all_goals exact ⟨rfl, by trivial⟩
  all_goals
    obtain ⟨-, -, frame, rfl⟩ := fetchFrame_eq_run.mp h
    exact ⟨s.read_view _, Payloads.sends_of_format (by simp [decodeFrame_format frame]) _⟩

theorem step_moves (h : step s = .next t) : s.Moves s.payloads t := by
  obtain ⟨i, u, fetched, executed⟩ | own := step_eq_next.mp h
  · obtain ⟨same, sends⟩ := fetch_run_view fetched
    exact (exec_moves sends executed).after same
  · exact fetchSession_moves (fetch_eq_host.mp own).2

/-! # Every step keeps the session's fields fitting together -/

/-- The transport is open and the session has no outcome yet. -/
structure View.Running (v : View) : Prop where
  handle : v.handle ≠ none
  port : v.port ≠ none
  outcome : v.sessionOutcome = none
  framing : v.framing = serialFraming

/-- What `SessionInv` asks in each session state; `cancelled` says whether a cancellation is requested. -/
def View.ProperIn (v : View) (cancelled : Bool) : SessionState → Prop
  | .disconnected => v.handle = none ∧ v.phase = .ready ∧ v.framing = serialFraming ∧
    (v.sessionOutcome = none → v.baud = none ∧ v.port = none ∧ v.records = []) ∧
    (v.sessionOutcome = some .initializationFailed → v.records = [] ∧ v.baud = some Config.baudInit) ∧
    (v.sessionOutcome = some .normal → cancelled = true)
  | .initializing => v.Running ∧ v.records = [] ∧
    (v.phase = .awaitAck ∧ v.baud = some Config.baudInit ∨ v.phase = .ready ∧ v.baud = some Config.baudHigh)
  | .configuringSpeed =>
    v.Running ∧ v.records = [] ∧ v.baud = some Config.baudHigh ∧ (v.phase = .ready ∨ v.phase = .awaitAck)
  | .configuringRange => v.Running ∧ v.records = [] ∧ v.baud = some Config.baudHigh ∧ v.phase = .awaitAck
  | .streaming => v.Running ∧ v.baud = some Config.baudHigh
  | .shuttingDown => v.Running ∧ v.baud = some Config.baudHigh ∧ v.phase = .ready ∧ cancelled = true

/-- `SessionInv`, told by the session state. -/
def View.Proper (v : View) (cancelled : Bool) : Prop := v.ProperIn cancelled v.session

end Sys2Proof.Machine

namespace Sys2Proof.Safety

open Sys2Proof.Machine

variable {s : State}

theorem SessionInv.running (h : SessionInv s) (begun : s.session ≠ .disconnected) : s.view.Running where
  handle := Option.isSome_iff_ne_none.mp (h.handle_open.mpr begun)
  port := h.port_open begun
  outcome := not_not.mp (mt h.outcome_final begun)
  framing := h.framed

/-- Outside `Streaming` an ack is all that can be awaited. -/
theorem SessionInv.phase_cases (h : SessionInv s) (hs : s.session ≠ .streaming) :
    s.phase = .ready ∨ s.phase = .awaitAck := by
  have telemetry := mt h.telemetry_awaited hs
  cases hp : s.phase <;> simp_all

/-- Where no command with a judged ack is in flight, nothing is awaited. -/
theorem SessionInv.idle (h : SessionInv s) (hs : s.session = .disconnected ∨ s.session = .shuttingDown) :
    s.phase = .ready := by
  have acks := h.ack_awaited
  obtain hp | hp := h.phase_cases (by rintro e; simp [e] at hs)
  · exact hp
  · obtain hs | hs := hs <;> simp [hs, hp] at acks

theorem SessionInv.proper (h : SessionInv s) : s.view.Proper s.cancelRequested := by
  have running := h.running
  rw [View.Proper, show s.view.session = s.session from rfl]
  cases hs : s.session
  case disconnected =>
    have closed : s.handle = none := by simpa [hs] using h.handle_open
    refine ⟨closed, h.idle (.inl hs), h.framed, fun new => ?_, h.init_failed, fun normal => h.cancelled (.inr normal)⟩
    obtain ⟨baud, port, -⟩ := h.unstarted_closed ⟨hs, new⟩
    exact ⟨baud, port, h.unrecorded (.inl ⟨hs, new⟩)⟩
  case initializing =>
    refine ⟨running (by simp [hs]), h.unrecorded (.inr (.inl hs)), ?_⟩
    obtain hp | hp := h.phase_cases (by simp [hs])
    · exact .inr ⟨hp, h.raised hs hp⟩
    · exact .inl ⟨hp, h.low_rate hs hp⟩
  case configuringSpeed =>
    exact ⟨running (by simp [hs]), h.unrecorded (.inr (.inr (.inl hs))), h.high_rate (.inl hs),
      h.phase_cases (by simp [hs])⟩
  case configuringRange =>
    exact ⟨running (by simp [hs]), h.unrecorded (.inr (.inr (.inr hs))), h.high_rate (.inr (.inl hs)), h.range_awaits hs⟩
  case streaming => exact ⟨running (by simp [hs]), h.high_rate (.inr (.inr (.inl hs)))⟩
  case shuttingDown =>
    exact ⟨running (by simp [hs]), h.high_rate (.inr (.inr (.inr hs))), h.idle (.inr hs), h.cancelled (.inl hs)⟩

/-- `View.Proper` is all that `SessionInv` asks. -/
theorem SessionInv.of_proper (h : s.view.Proper s.cancelRequested) : SessionInv s := by
  rw [View.Proper, show s.view.session = s.session from rfl] at h
  cases hs : s.session <;> rw [hs] at h
  case disconnected =>
    obtain ⟨handle, phase, framing, new, failed, normal⟩ := h
    constructor <;> simp_all [State.view, unstarted]
  case initializing | configuringSpeed | configuringRange | streaming | shuttingDown =>
    obtain ⟨⟨handle, port, outcome, framing⟩, rest⟩ := h
    constructor <;> simp_all [State.view, unstarted, Option.isSome_iff_ne_none] <;> grind

/-- Nothing is recorded before `Streaming` (44_host_session.md R150). -/
theorem SessionInv.records_nil (inv : SessionInv s) (no : s.sessionOutcome = none) (h : s.session ≠ .streaming)
    (h' : s.session ≠ .shuttingDown) : s.records = [] := by
  refine inv.unrecorded ?_
  cases hs : s.session <;> simp_all [unstarted]

end Sys2Proof.Safety

namespace Sys2Proof.Machine

open Sys2Proof.Safety

variable {s t : State} {c : Payloads} {v w : View} {before after : Bool} {o : SessionOutcome}

/-- A cancellation more is never in the way. -/
theorem View.Proper.mono (h : v.Proper before) (kept : before = true → after = true) : v.Proper after := by
  unfold View.Proper at *
  cases hs : v.session <;> rw [hs] at h
  case disconnected =>
    obtain ⟨handle, phase, framing, new, failed, normal⟩ := h
    exact ⟨handle, phase, framing, new, failed, fun e => kept (normal e)⟩
  case shuttingDown =>
    obtain ⟨running, baud, phase, cancelled⟩ := h
    exact ⟨running, baud, phase, kept cancelled⟩
  all_goals exact h

theorem View.Proper.running (h : v.Proper after) (begun : v.session ≠ .disconnected) : v.Running := by
  unfold View.Proper at h
  cases hs : v.session <;> rw [hs] at h
  case disconnected => exact absurd hs begun
  all_goals exact h.1

/-- A change of session state, place, records or `tx` leaves the session running. -/
theorem View.Running.of_eq (h : v.Running) (handle : w.handle = v.handle) (port : w.port = v.port)
    (outcome : w.sessionOutcome = v.sessionOutcome) (framing : w.framing = v.framing) : w.Running :=
  ⟨handle ▸ h.handle, port ▸ h.port, outcome ▸ h.outcome, framing ▸ h.framing⟩

theorem View.Proper.of_session {st : SessionState} (hs : v.session = st) (h : v.ProperIn after st) : v.Proper after :=
  show v.ProperIn after v.session from hs ▸ h

/-- A detection is awaited while streaming alone. -/
theorem View.Proper.streaming (h : v.Proper after) (awaited : v.phase = .awaitHeader ∨ v.phase = .awaitPayload) :
    v.session = .streaming := by
  unfold View.Proper at h
  cases hs : v.session <;> rw [hs] at h
  all_goals
    unfold View.ProperIn at h
    obtain hp | hp := awaited <;> simp [hp] at h

theorem View.Continues.proper (h : v.Proper after) (go : v.Continues c after w) : w.Proper after := by
  have proper {st : SessionState} (hs : v.session = st) : v.ProperIn after st := hs ▸ h
  cases go with
  | stays => exact h
  | leaves outside =>
    have idle : v.phase = .ready := by
      obtain hs | hs := outside
      · obtain ⟨-, idle, -⟩ := proper hs
        exact idle
      · obtain ⟨-, -, idle, -⟩ := proper hs
        exact idle
    rwa [← idle]
  | strays p awaited =>
    obtain ⟨running, baud⟩ := proper (h.streaming awaited)
    exact .of_session (h.streaming awaited) ⟨running.of_eq rfl rfl rfl rfl, baud⟩
  | init handle port new no =>
    obtain ⟨-, -, -, unstarted, -, -⟩ := proper new
    obtain ⟨-, -, records⟩ := unstarted no
    exact ⟨⟨nofun, nofun, no, rfl⟩, records, .inl ⟨rfl, rfl⟩⟩
  | raised session =>
    obtain ⟨running, records, -⟩ := proper session
    exact .of_session session ⟨running.of_eq rfl rfl rfl rfl, records, .inr ⟨rfl, rfl⟩⟩
  | rspi session idle =>
    obtain ⟨running, records, ⟨awaited, -⟩ | ⟨-, baud⟩⟩ := proper session
    · cases idle.symm.trans awaited
    · exact ⟨running.of_eq rfl rfl rfl rfl, records, baud, .inr rfl⟩
  | rspiJudged session =>
    obtain ⟨running, records, baud, -⟩ := proper session
    exact .of_session session ⟨running.of_eq rfl rfl rfl rfl, records, baud, .inl rfl⟩
  | rrai session =>
    obtain ⟨running, records, baud, -⟩ := proper session
    exact ⟨running.of_eq rfl rfl rfl rfl, records, baud, rfl⟩
  | rraiJudged session =>
    obtain ⟨running, -, baud, -⟩ := proper session
    exact ⟨running.of_eq rfl rfl rfl rfl, baud⟩
  | gnfd session | cycle _ _ session =>
    obtain ⟨running, baud⟩ := proper session
    exact .of_session session ⟨running.of_eq rfl rfl rfl rfl, baud⟩
  | gbye _ session idle cancelled =>
    obtain ⟨running, baud⟩ := proper session
    exact ⟨running.of_eq rfl rfl rfl rfl, baud, idle, cancelled⟩

theorem View.Ends.proper (h : v.Proper after) (fin : v.Ends o w) : w.Proper after := by
  have proper {st : SessionState} (hs : v.session = st) : v.ProperIn after st := hs ▸ h
  cases fin with
  | notOpened new _ idle =>
    obtain ⟨handle, -, framing, -⟩ := proper new
    exact .of_session new ⟨handle, idle, framing, nofun, nofun, nofun⟩
  | initNotPut handle port _ new => exact ⟨rfl, rfl, rfl, nofun, nofun, nofun⟩
  | failed _ begun _ => exact ⟨rfl, rfl, (h.running begun).framing, nofun, nofun, nofun⟩
  | notInitialized session awaited =>
    obtain ⟨running, records, ⟨-, baud⟩ | ⟨idle, -⟩⟩ := proper session
    · exact ⟨rfl, rfl, running.framing, nofun, fun _ => ⟨records, baud⟩, nofun⟩
    · cases awaited.symm.trans idle
  | closed session =>
    obtain ⟨running, -, -, cancelled⟩ := proper session
    exact ⟨rfl, rfl, running.framing, nofun, nofun, fun _ => cancelled⟩

theorem State.Moves.sessionInv (h : s.Moves c t) (inv : SessionInv s) (g : s.Grows t) : SessionInv t := by
  obtain ⟨_, -, kept⟩ := g
  have before := inv.proper.mono kept.cancel
  obtain go | ⟨o, fin, -⟩ := h
  · exact .of_proper (go.proper before)
  · exact .of_proper (fin.proper before)

/-- Settles O52: an instruction moves the session as its rules say, and each such move keeps `View.Proper`. -/
theorem stepKeepsSessionInv : Obligations.StepKeepsSessionInv := by
  refine ⟨fun s t inv h => (step_moves h).sessionInv inv (step_grows h), fun i s t inv h => ?_⟩
  obtain ⟨c, sends⟩ := Payloads.exists_sends i
  exact (exec_moves sends h).sessionInv inv (exec_grows h)

/-! # Every step keeps `tx` a sequence of whole frames -/

/-- `TxInv`, which reads the payloads and three fields of the view alone. -/
def View.Sent (v : View) (c : Payloads) : Prop :=
  TxInv { State.reset with session := v.session, sessionOutcome := v.sessionOutcome, tx := v.tx, payloads := c }

theorem txInv_iff : TxInv s ↔ s.view.Sent s.payloads := Iff.rfl

theorem View.sent_iff {st : SessionState} (hs : v.session = st) : v.Sent c ↔ ({ v with session := st } : View).Sent c := by
  subst hs
  rfl

theorem View.Sent.of_session {st : SessionState} (hs : v.session = st) (h : ({ v with session := st } : View).Sent c) :
    v.Sent c :=
  (View.sent_iff hs).mpr h

theorem View.Sent.unstarted (h : v.Sent c) (new : v.session = .disconnected) (no : v.sessionOutcome = none) :
    v.tx = [] := by
  simpa [View.Sent, TxInv, new, no] using h

theorem cycleBytes_zero (c : Payloads) : cycleBytes c 0 = setupBytes c := by
  simp [cycleBytes]

theorem cycleBytes_succ (c : Payloads) (n : Nat) :
    cycleBytes c (n + 1) = cycleBytes c n ++ commandFrame Config.tagGnfd c.gnfd.bytes := by
  simp [cycleBytes, List.replicate_succ']

/-- What a running session has put are the first frames of a session. -/
theorem View.Sent.sessionPrefix (h : v.Sent c) (begun : v.session ≠ .disconnected) (running : v.session ≠ .shuttingDown) :
    SessionPrefix c v.tx := by
  cases hs : v.session <;> have h := (View.sent_iff hs).mp h
  case disconnected => exact absurd hs begun
  case initializing => exact .inr (.inl h)
  case configuringSpeed => exact .inr (.inr (.inl h))
  case configuringRange => exact .inr (.inr (.inr ⟨0, h.trans (cycleBytes_zero c).symm⟩))
  case streaming => exact .inr (.inr (.inr h))
  case shuttingDown => exact absurd hs running

theorem Farewell.append {sent b : Bytes} (h : Farewell sent) : b ++ sent = b ∨ b ++ sent = b ++ gbyeFrame := by
  obtain rfl | rfl := h
  · exact .inl (List.append_nil b)
  · exact .inr rfl

theorem View.Continues.sent (h : v.Sent c) (go : v.Continues c after w) : w.Sent c := by
  cases go with
  | stays | leaves | strays | raised | rspiJudged | cycle => exact h
  | init handle port new no =>
    show v.tx ++ _ = _
    rw [h.unstarted new no, List.nil_append]
  | rspi session =>
    have tx : v.tx = _ := (View.sent_iff session).mp h
    show v.tx ++ _ = _
    rw [tx]
  | rrai session =>
    have tx : v.tx = _ := (View.sent_iff session).mp h
    show v.tx ++ _ = _
    rw [tx, setupBytes]
  | rraiJudged session =>
    have tx : v.tx = setupBytes c := (View.sent_iff session).mp h
    exact ⟨0, tx.trans (cycleBytes_zero c).symm⟩
  | gnfd session =>
    obtain ⟨n, tx⟩ : ∃ n, v.tx = cycleBytes c n := (View.sent_iff session).mp h
    refine .of_session session ⟨n + 1, ?_⟩
    show v.tx ++ _ = _
    rw [tx, cycleBytes_succ]
  | gbye farewell session =>
    obtain ⟨n, tx⟩ : ∃ n, v.tx = cycleBytes c n := (View.sent_iff session).mp h
    exact ⟨n, tx ▸ farewell.append⟩

theorem View.Ends.sent (h : v.Sent c) (fin : v.Ends o w) : w.Sent c := by
  cases fin with
  | notOpened new no => exact .of_session new ⟨[], .inl rfl, .inl (h.unstarted new no)⟩
  | initNotPut handle port farewell new no => exact ⟨v.tx, .inl (h.unstarted new no), farewell.append⟩
  | failed farewell begun running => exact ⟨v.tx, h.sessionPrefix begun running, farewell.append⟩
  | notInitialized session =>
    have tx : v.tx = _ := (View.sent_iff session).mp h
    exact (List.append_nil _).trans tx
  | closed session =>
    show ∃ n, v.tx ++ [] = _ ∨ v.tx ++ [] = _
    rw [List.append_nil]
    exact (View.sent_iff session).mp h

/-- Settles O53: a step puts the payloads of its state, so each of its moves adds the next frame of the session, or a farewell. -/
theorem stepKeepsTxInv : Obligations.StepKeepsTxInv := by
  intro s t _ inv h
  obtain ⟨_, -, kept⟩ := step_grows h
  rw [txInv_iff] at inv ⊢
  rw [kept.payloads]
  obtain go | ⟨o, fin, -⟩ := step_moves h
  · exact go.sent inv
  · exact fin.sent inv

/-! # The rates keep their order -/

theorem baudInit_lt_baudHigh : Config.baudInit < Config.baudHigh := by
  unfold Config.baudHigh
  omega

/-- Before `open` the transport has no rate. -/
theorem View.Proper.baud_unstarted (h : v.Proper after) (new : v.session = .disconnected) (no : v.sessionOutcome = none) :
    v.baud = none := by
  obtain ⟨-, -, -, unstarted, -, -⟩ : v.ProperIn after .disconnected := new ▸ h
  exact (unstarted no).1

theorem View.Continues.keeps_high_rate (h : v.Proper after) (go : v.Continues c after w)
    (high : v.baud = some Config.baudHigh) : w.baud = some Config.baudHigh := by
  cases go with
  | init handle port new no => cases high.symm.trans (h.baud_unstarted new no)
  | raised => rfl
  | _ => exact high

theorem View.Ends.keeps_high_rate (h : v.Proper after) (fin : v.Ends o w) (high : v.baud = some Config.baudHigh) :
    w.baud = some Config.baudHigh := by
  cases fin with
  | initNotPut handle port farewell new no => cases high.symm.trans (h.baud_unstarted new no)
  | _ => exact high

/-- Once `RSPI` is due the rate is raised. -/
theorem View.Proper.not_low (h : v.Proper after) (begun : v.session ≠ .disconnected)
    (due : v.session = .initializing → v.phase = .ready) : v.baud ≠ some Config.baudInit := by
  have raised : v.baud = some Config.baudHigh := by
    unfold View.Proper at h
    cases hs : v.session <;> rw [hs] at h
    case disconnected => exact absurd hs begun
    case initializing =>
      obtain ⟨-, -, ⟨awaited, -⟩ | ⟨-, baud⟩⟩ := h
      · cases awaited.symm.trans (due hs)
      · exact baud
    case configuringSpeed | configuringRange =>
      obtain ⟨-, -, baud, -⟩ := h
      exact baud
    case streaming =>
      obtain ⟨-, baud⟩ := h
      exact baud
    case shuttingDown =>
      obtain ⟨-, baud, -⟩ := h
      exact baud
  rw [raised]
  exact fun e => baudInit_lt_baudHigh.ne' (Option.some.inj e)

theorem View.Continues.puts_nothing_at_low_rate (h : v.Proper after) (go : v.Continues c after w)
    (low : v.baud = some Config.baudInit) : w.tx = v.tx := by
  cases go with
  | init handle port new no => cases low.symm.trans (h.baud_unstarted new no)
  | rspi session idle => exact absurd low (h.not_low (by simp [session]) fun _ => idle)
  | rrai session | gnfd session | gbye _ session => exact absurd low (h.not_low (by simp [session]) (by simp [session]))
  | _ => rfl

theorem View.Ends.puts_gbye_alone_at_low_rate (h : v.Proper after) (fin : v.Ends o w)
    (low : v.baud = some Config.baudInit) : w.tx = v.tx ∨ o = .transportError ∧ w.tx = v.tx ++ gbyeFrame := by
  cases fin with
  | notOpened => exact .inl rfl
  | initNotPut handle port farewell new no => cases low.symm.trans (h.baud_unstarted new no)
  | failed farewell => exact farewell.append.imp_right fun tx => ⟨rfl, tx⟩
  | notInitialized | closed => exact .inl (List.append_nil _)

/-- How a session ends (44_host_session.md R160). -/
theorem View.Ends.spec (fin : v.Ends o w) :
    w.session = .disconnected ∧ w.sessionOutcome = some o ∧ w.records = v.records := by
  cases fin with
  | notOpened new => exact ⟨new, rfl, rfl⟩
  | _ => exact ⟨rfl, rfl, rfl⟩

/-- Settles O57: only `open` sets the low rate, and no rate comes before it; at the low rate `RSPI` is not due yet. -/
theorem ratesKeepTheirOrder : Obligations.RatesKeepTheirOrder := by
  intro s t inv h
  obtain ⟨_, -, kept⟩ := step_grows h
  have proper := inv.proper.mono kept.cancel
  obtain go | ⟨o, fin, -⟩ := step_moves h
  · exact ⟨go.keeps_high_rate proper, fun low put => absurd (go.puts_nothing_at_low_rate proper low) put⟩
  · refine ⟨fin.keeps_high_rate proper, fun low put => ?_⟩
    obtain same | ⟨rfl, tx⟩ := fin.puts_gbye_alone_at_low_rate proper low
    · exact absurd same put
    · exact ⟨fin.spec.2.1, tx⟩

/-! # Every end of a session hands over the records -/

theorem View.Continues.outcome (go : v.Continues c after w) : w.sessionOutcome = v.sessionOutcome := by
  cases go <;> rfl

/-- Settles O58: the moves that set an outcome are the ends of a session. -/
theorem terminationHandsOverRecords : Obligations.TerminationHandsOverRecords := by
  intro s t o h running final
  obtain go | ⟨o', fin, last⟩ := step_moves h
  · cases final.symm.trans (go.outcome.trans running)
  · obtain ⟨session, outcome, records⟩ := fin.spec
    cases final.symm.trans outcome
    refine ⟨session, records, ?_, fun inv streaming shutting => ?_⟩
    · rw [last, ← records]
      rfl
    · exact records.trans (inv.records_nil running streaming shutting)

/-! # Only a cancellation between cycles leads to `ShuttingDown` -/

theorem View.Continues.shutsDown (go : v.Continues c after w) (shut : w.session = .shuttingDown)
    (still : v.session ≠ .shuttingDown) : v.session = .streaming ∧ v.phase = .ready := by
  cases go with
  | gbye _ session idle => exact ⟨session, idle⟩
  | init | rspi | rrai | rraiJudged => cases shut
  | _ => exact absurd shut still

theorem State.ioFailure_not_shuttingDown (h : s.session ≠ .shuttingDown) : s.ioFailure.session ≠ .shuttingDown := by
  by_cases fragile : Fragile s
  · obtain ⟨session, -⟩ := State.ioFailure_ends fragile
    simp [session]
  · rwa [State.ioFailure_harmless fragile]

theorem State.onDecoded_session (s : State) (r : DetResult) : (s.onDecoded r).session = s.session := by
  by_cases hs : s.session = .streaming
  · rw [State.onDecoded_streaming hs]
    cases r <;> rfl
  · rw [State.onDecoded_not_streaming hs]
    rfl

theorem State.deliver_session (s : State) (p : Phase) (r : DetResult) : (s.deliver p r).session = s.session := by
  by_cases hp : s.phase = p
  · rw [State.deliver_awaited hp, State.onDecoded_session]
    rfl
  · rw [State.deliver_unawaited hp]
    rfl

/-- An operation of the block does not say goodbye. -/
theorem exec_call_not_shuttingDown {call : Call} (h : exec call.instr s = .next t) (still : s.session ≠ .shuttingDown) :
    t.session ≠ .shuttingDown := by
  cases call
  case encode =>
    obtain ⟨-, rfl⟩ := execEncodeCommand_eq_next.mp h
    exact still
  case ack =>
    cases h
    exact still
  case detection header source =>
    cases source
    case reader =>
      cases h
      exact still
    case stream =>
      obtain ⟨-, rfl⟩ | ⟨-, -, ⟨-, rfl⟩ | ⟨-, rfl⟩⟩ := detectFromStream_eq_next.mp h
      · rwa [State.deliver_session]
      · exact State.ioFailure_not_shuttingDown (by simpa using still)
      · rwa [State.deliver_session, State.read_session]

theorem exec_gnfd_not_shuttingDown {g : Descriptor} (h : exec (.gnfd g) s = .next t) : t.session ≠ .shuttingDown := by
  obtain ⟨⟨may, -⟩, rfl⟩ := execGnfd_eq_next.mp h
  obtain ⟨session, -⟩ := State.mayCommand_iff.mp may
  have fragile : Fragile (s.built Config.tagGnfd g.bytes) := .inr (.inr (.inr session))
  cases hi : (s.built Config.tagGnfd g.bytes).nextReply.ioError
  · rw [State.sendCommand_ok hi]
    simp [session]
  · obtain ⟨ended, -⟩ := State.sendCommand_ends hi fragile (commandFrame Config.tagGnfd g.bytes)
    simp [ended]

/-- Settles O48: the cases of `fetchReady`. -/
theorem stepSelectsCommand : Obligations.StepSelectsCommand := by
  intro s idle ready
  have run {i : Instr} (h : fetchReady s = .run i s) : step s = exec i s :=
    step_of_fetch_run ((fetch_ready idle ready).trans h)
  have host {t : State} (h : fetchReady s = .host t) : step s = .next t :=
    step_of_fetch_host ((fetch_ready idle ready).trans h)
  refine ⟨fun session new start => run ?_, fun session new start => host ?_, fun session => run ?_, fun session => run ?_,
    fun session cancel => run ?_, fun session cancel => run ?_⟩
  · exact fetchReady_eq_run.mpr ⟨rfl, .inl ⟨session, new, start, rfl⟩⟩
  · exact fetchReady_eq_host.mpr (.inl ⟨session, new, start, rfl⟩)
  · exact fetchReady_eq_run.mpr ⟨rfl, .inr (.inl ⟨session, rfl⟩)⟩
  · exact fetchReady_eq_run.mpr ⟨rfl, .inr (.inr (.inl ⟨session, rfl⟩))⟩
  · exact fetchReady_eq_run.mpr ⟨rfl, .inr (.inr (.inr (.inr ⟨session, cancel, rfl⟩)))⟩
  · exact fetchReady_eq_run.mpr ⟨rfl, .inr (.inr (.inr (.inl ⟨session, cancel, rfl⟩)))⟩

/-- Settles O55: `GBYE` alone leads there; a presented operation is another, and without a cancellation `GNFD` runs. -/
theorem onlyCancellationShutsDown : Obligations.OnlyCancellationShutsDown := by
  intro s t h still shut
  obtain go | ⟨o, fin, -⟩ := step_moves h
  case inr => cases shut.symm.trans fin.spec.1
  obtain ⟨session, ready⟩ : s.session = .streaming ∧ s.phase = .ready := go.shutsDown shut still
  have idle : s.calls = [] := by
    cases hc : s.calls
    case nil => rfl
    case cons call calls =>
      rw [step_of_fetch_run (i := call.instr) (by rw [fetch, hc])] at h
      exact absurd shut (exec_call_not_shuttingDown h still)
  refine ⟨session, ready, ?_, idle⟩
  by_contra uncancelled
  obtain ⟨-, -, -, -, cycle, -⟩ := stepSelectsCommand s idle ready
  rw [cycle session (by simpa using uncancelled)] at h
  exact exec_gnfd_not_shuttingDown h shut

end Sys2Proof.Machine

namespace Sys2Proof.Machine

open Sys2Proof.Safety

variable {s t : State}

/-! # What the commands put -/

/-- The frame a command with a value shows on the port (30_encoding.md R68). -/
theorem State.built_value (s : State) {tag : Bytes} (h : tag.length = 4) (p : Value) :
    s.built tag p.bytes = s.answer (some (.enc (.frame (tag ++ [4, 0, 0, 0] ++ p.bytes)))) := by
  rw [State.built, encodeCommand_of_length h, commandFrame_value]

/-- The frame a command with a descriptor shows on the port (30_encoding.md R68). -/
theorem State.built_descriptor (s : State) {tag : Bytes} (h : tag.length = 4) (g : Descriptor) :
    s.built tag g.bytes = s.answer (some (.enc (.frame (tag ++ [8, 0, 0, 0] ++ g.bytes)))) := by
  rw [State.built, encodeCommand_of_length h, commandFrame_descriptor]

/-- An `open` neither reads nor writes the pending `Start`. -/
theorem State.openPort_setStartEvent (s : State) (e : Option Nat) (port : Nat) :
    ({ s with startEvent := e } : State).openPort port =
      ((s.openPort port).1, { (s.openPort port).2 with startEvent := e }) := by
  cases hi : s.nextReply.ioError
  · rw [State.openPort_of_ok hi, State.openPort_of_ok (s := { s with startEvent := e }) hi]
    rfl
  · rw [State.openPort_of_error hi, State.openPort_of_error (s := { s with startEvent := e }) hi]
    rfl

/-- Settles O30: the put follows an `open` that succeeds. -/
theorem initOpensAndPuts : Obligations.InitOpensAndPuts := by
  intro p port s session idle new start opens puts
  refine ⟨execInit_eq_next.mpr ⟨new, session, idle, port, start, .inl ⟨opens, ?_⟩⟩, ?_⟩
  · have tx : (s.openPort port).2.tx = s.tx := s.openPort_tx port
    have trace : (s.openPort port).2.trace = s.trace ++ [.opened port Config.baudInit serialFraming true] := by
      rw [State.openPort_trace, opens]
      rfl
    rw [State.openPort_setStartEvent, State.built_value _ rfl, commandFrame_value]
    generalize (s.openPort port).2 = u at puts tx trace ⊢
    rw [State.sendCommand_ok, State.enter_tx, State.answer_tx, State.enter_trace, State.answer_trace]
    · simp only [tx, trace, List.append_assoc]
      rfl
    · exact puts
  · rw [State.openPort_of_ok opens]
    exact ⟨rfl, rfl, rfl, rfl, rfl⟩

/-- Settles O31: each command is in its place, so it is put in the state it enters. -/
theorem setupCommandsPut : Obligations.SetupCommandsPut := by
  intro p s idle opened new puts
  refine ⟨fun session => ?_, fun session => ?_⟩
  · refine execRspi_eq_next.mpr ⟨State.mayCommand_iff.mpr ⟨session, idle, opened, new⟩, ?_⟩
    rw [State.built_value _ rfl, commandFrame_value, State.sendCommand_ok]
    · rfl
    · exact puts
  · refine execRrai_eq_next.mpr ⟨State.mayCommand_iff.mpr ⟨session, idle, opened, new⟩, ?_⟩
    rw [State.built_value _ rfl, commandFrame_value, State.sendCommand_ok]
    · rfl
    · exact puts

/-- Settles O32: in its place and with no cancellation seen, the command is put. -/
theorem gnfdPuts : Obligations.GnfdPuts := by
  intro g s session idle opened new uncancelled puts
  refine execGnfd_eq_next.mpr ⟨⟨State.mayCommand_iff.mpr ⟨session, idle, opened, new⟩, uncancelled⟩, ?_⟩
  rw [State.built_descriptor _ rfl, commandFrame_descriptor, State.sendCommand_ok]
  · rfl
  · exact puts

/-- Settles O33: the put succeeds, so the response is taken. -/
theorem gbyePutsAndDropsResponse : Obligations.GbyePutsAndDropsResponse := by
  intro s session idle opened new cancelled puts takes
  refine execGbye_eq_next.mpr ⟨⟨State.mayCommand_iff.mpr ⟨session, idle, opened, new⟩, cancelled⟩, ?_⟩
  rw [State.sayGoodbye_ok, State.write_of_ok, State.read_of_ok]
  · simp only [List.append_assoc]
    rfl
  · exact takes
  · exact puts
  · exact puts

/-! # What the host makes of an ack -/

theorem exec_ackOk_awaited (a : AckBytes) (awaited : s.phase = .awaitAck) :
    exec (.ackOk a) s = .next ((s.answer (some (.ack .ok))).onAck .ok) := by
  rw [exec_ackOk, State.judgeAck_awaited awaited, decodeAck_ackFrame_zero]

/-- The step that awaits an ack is the host's reaction to what ACK makes of the bytes taken. -/
theorem step_awaitAck (idle : s.calls = []) (awaited : s.phase = .awaitAck) (opened : s.handle ≠ none)
    (succeeds : s.nextReply.ioError = false) :
    step s = .next (((s.read 9).2.answer (some (.ack (decodeAck ((s.rx ++ s.nextReply.arrived).take 9))))).onAck
      (decodeAck ((s.rx ++ s.nextReply.arrived).take 9))) := by
  rw [stepJudgesTheTakenAck s idle awaited opened succeeds, State.judgeAck_awaited (by simpa using awaited)]

/-- Settles O36: the reaction to `Ok` is the baud raise, after which `RSPI` is selected. -/
theorem initAckSettlesThenRaisesBaud : Obligations.InitAckSettlesThenRaisesBaud := by
  intro a s session awaited raises
  have raised : exec (.ackOk a) s = .next ((s.answer (some (.ack .ok))).raiseBaud) := by
    rw [exec_ackOk_awaited a awaited, State.onAck_initializing_ok (by simpa using session)]
  rw [State.raiseBaud_ok (s := s.answer (some (.ack .ok))) raises] at raised
  refine ⟨raised, fun t h idle => ?_⟩
  cases raised.symm.trans h
  obtain ⟨-, -, rspi, -⟩ := stepSelectsCommand _ idle rfl
  exact rspi session

/-- Settles O37: the reaction to any other outcome closes the transport and finishes the session. -/
theorem initFailureEndsSession : Obligations.InitFailureEndsSession := by
  intro s idle session awaited opened takes failed
  refine ⟨_, step_awaitAck idle awaited opened takes, ?_⟩
  rw [State.onAck_initializing_failed (by simpa using session) failed, State.failInitialization]
  have reply (r : Option PortResult) : ((s.read 9).2.answer r).nextReply = s.useReply.nextReply := s.read_nextReply 9
  simp [reply, takes]

/-- Settles O38: the reaction to the ack of `RSPI`. -/
theorem rspiAckProceeds : Obligations.RspiAckProceeds := by
  intro s idle session awaited opened takes
  rw [step_awaitAck idle awaited opened takes, State.onAck_configuringSpeed (by simpa using session)]
  rfl

/-- Settles O39: the reaction to the ack of `RRAI`. -/
theorem rraiAckEntersStreaming : Obligations.RraiAckEntersStreaming := by
  intro s idle session awaited opened takes
  rw [step_awaitAck idle awaited opened takes, State.onAck_configuringRange (by simpa using session)]
  rfl

/-- Settles O40: the reaction to an ack while streaming, its outcome not `Ok`. -/
theorem gnfdAckFailureAbandonsCycle : Obligations.GnfdAckFailureAbandonsCycle := by
  refine ⟨fun a st s nonzero session awaited => ?_, fun s idle session awaited opened takes failed => ?_⟩
  · rw [exec_ackNotAcknowledged, State.judgeAck_awaited awaited, decodeAck_ackFrame_nonzero a nonzero,
      State.onAck_streaming (by simpa using session)]
    rfl
  · rw [step_awaitAck idle awaited opened takes, State.onAck_streaming (by simpa using session), if_neg failed,
      if_neg failed]
    rfl

/-- Settles O41: the reaction to an ack while streaming, its outcome `Ok`. -/
theorem gnfdAckAwaitsHeader : Obligations.GnfdAckAwaitsHeader := by
  intro a s session awaited
  rw [exec_ackOk_awaited a awaited, State.onAck_streaming (by simpa using session)]
  simp [State.answer]

/-! # What the host makes of a detection -/

/-- Settles O42: fewer than eight bytes are no header, so they are the host's own business. -/
theorem shortHeaderWarns : Obligations.ShortHeaderWarns := by
  intro s idle session awaited opened takes short
  have few : (s.rx ++ s.nextReply.arrived).length < 8 := by simpa using short
  have taken : (s.rx ++ s.nextReply.arrived).take 8 = s.rx ++ s.nextReply.arrived := List.take_of_length_le few.le
  have found := fetch_awaitHeader idle awaited
  rw [fetchFrame_short (f := .hdr) opened takes (decodeHdr_error (taken.symm ▸ few.ne)), taken] at found
  rw [step_of_fetch_host found, State.onShortHeader, List.length_append]
  rfl

/-- Settles O43: DET makes `TruncatedPayload` of fewer than eight bytes, and the cycle ends with it. -/
theorem truncatedPayloadWarns : Obligations.TruncatedPayloadWarns := by
  intro s idle session awaited opened takes short
  have few : ((s.rx ++ s.nextReply.arrived).take 8).length ≠ 8 := by
    rw [List.length_take, List.length_append]
    omega
  rw [step_awaitPayload idle awaited opened takes, detectionOf_other _ few, State.deliver_awaited (by simpa using awaited),
    State.onDecoded_streaming (by simpa using session)]
  rfl

theorem exec_hdrNoTarget (h : Header) (s : State) : exec (.hdrNoTarget h) s = .next (s.testHeader h) := rfl

/-- Settles O15: without a target both operations on the stream deliver `None`, and the reader comes back as it was. -/
theorem noTargetIsHandedOver : Obligations.NoTargetIsHandedOver := by
  intro h s flag
  have no : h.noTarget = true := h.noTarget_iff.mpr flag
  rw [exec_decodeDetection_reader, detectFromReader_eq, decodeDetection_noTarget _ no, exec_decodeDetection_stream,
    detectFromStream_noTarget no, exec_hdrNoTarget, State.testHeader_noTarget no, and_self, and_self]
  refine ⟨rfl, fun unawaited => ?_, fun awaited session => ?_⟩
  · rw [State.deliver_unawaited unawaited, State.answer]
  · rw [State.deliver_awaited awaited, State.onDecoded_streaming (by simpa using session)]
    rfl

/-- Settles O20: DET's Target is delivered, which records it where it is awaited while streaming. -/
theorem payloadIsRecorded : Obligations.PayloadIsRecorded := by
  intro d sp a m s
  refine ⟨fun awaited session => ?_, fun unawaited => ?_⟩
  · rw [exec_pld, State.deliver_awaited awaited, State.onDecoded_streaming (by simpa using session)]
    rfl
  · rw [exec_pld, State.deliver_unawaited unawaited, State.answer]

/-- Settles O46: between exchanges an ended session stops; an ack presented is judged before that. -/
theorem finishedSessionTakesNoEvent : Obligations.FinishedSessionTakesNoEvent := by
  intro s session idle finished
  refine ⟨fun unpresented => ?_, fun b => ⟨_, rfl, rfl, rfl, rfl⟩⟩
  rw [step, fetch_ready unpresented idle, fetchReady, session]
  simp [Option.isSome_iff_ne_none.mpr finished]

/-! # How a session ends -/

/-- 44_host_session.md R161: a baud raise that fails is fatal. -/
theorem State.raiseBaud_ends (fails : s.nextReply.ioError = true) (h : Fragile s) :
    EndsInTransportError s s.raiseBaud (!s.useReply.nextReply.ioError) := by
  rw [State.raiseBaud_error fails, State.setBaud_of_error (s := s.log _) fails]
  exact State.ioFailure_ends h

/-- The step that awaits a frame ends with the failure of its take. -/
theorem step_take_failed (idle : s.calls = []) (busy : s.phase ≠ .ready) (opened : s.handle ≠ none)
    (fails : s.nextReply.ioError = true) : ∃ n, step s = .next ((s.read n).2.answer none).ioFailure := by
  cases hp : s.phase
  case ready => exact absurd hp busy
  case awaitAck => exact ⟨9, step_of_fetch_host ((fetch_awaitAck idle hp).trans (fetchFrame_failed opened fails))⟩
  case awaitHeader => exact ⟨8, step_of_fetch_host ((fetch_awaitHeader idle hp).trans (fetchFrame_failed opened fails))⟩
  case awaitPayload => exact ⟨8, step_awaitPayload_failed idle hp opened fails⟩

/-- Settles O44: each call that fails is followed by the fatal transition from the state it leaves, a failing `open` by the end
alone. -/
theorem transportErrorEndsSession : Obligations.TransportErrorEndsSession := by
  refine ⟨?take, ?put, ?raise, ?opens, ?initPut⟩
  case take =>
    intro s idle fragile busy opened fails
    obtain ⟨n, taken⟩ := step_take_failed idle busy opened fails
    exact ⟨_, taken, (s.read_ioFailure_ends n fragile).2⟩
  case put =>
    intro p g s idle opened new fails
    have may {st : SessionState} (session : s.session = st) : s.mayCommand st = true :=
      State.mayCommand_iff.mpr ⟨session, idle, opened, new⟩
    refine ⟨fun session => ⟨_, execRspi_eq_next.mpr ⟨may session, rfl⟩, ?_⟩,
      fun session => ⟨_, execRrai_eq_next.mpr ⟨may session, rfl⟩, ?_⟩,
      fun session uncancelled => ⟨_, execGnfd_eq_next.mpr ⟨⟨may session, uncancelled⟩, rfl⟩, ?_⟩⟩
    · exact State.sendCommand_ends (s := (s.built _ _).enter _) fails (.inr (.inl rfl)) _
    · exact State.sendCommand_ends (s := (s.built _ _).enter _) fails (.inr (.inr (.inl rfl))) _
    · exact State.sendCommand_ends (s := s.built _ _) fails (.inr (.inr (.inr session))) _
  case raise =>
    intro a s session awaited fails
    refine ⟨_, exec_ackOk_awaited a awaited, ?_⟩
    rw [State.onAck_initializing_ok (by simpa using session)]
    exact State.raiseBaud_ends (s := s.answer (some (.ack .ok))) fails (.inl session)
  case opens =>
    intro p port s session idle new start fails
    refine ⟨_, execInit_eq_next.mpr ⟨new, session, idle, port, start, .inr ⟨fails, rfl⟩⟩, ?_⟩
    rw [State.openPort_setStartEvent, State.openPort_of_error fails]
    simp [State.failOpen, serialFraming, Config.stopBits, Config.dataBits, Config.readTimeoutMs]
  case initPut =>
    intro p port s session idle new start opens fails
    refine ⟨_, execInit_eq_next.mpr ⟨new, session, idle, port, start, .inl ⟨opens, rfl⟩⟩, ?_⟩
    rw [State.openPort_setStartEvent s none port]
    exact State.sendCommand_ends (s := (State.built { (s.openPort port).2 with startEvent := none } _ _).enter _) fails
      (.inl rfl) _

/-- Settles O45: the first step says goodbye, which keeps the place and the records, and the second closes the transport. -/
theorem shutdownAlwaysEndsNormally : Obligations.ShutdownAlwaysEndsNormally := by
  intro s idle session ready opened new cancelled
  obtain ⟨-, -, -, -, -, gbye⟩ := stepSelectsCommand s idle ready
  have first := (gbye session cancelled).trans
    (execGbye_eq_next.mpr ⟨⟨State.mayCommand_iff.mpr ⟨session, ready, opened, new⟩, cancelled⟩, rfl⟩)
  obtain ⟨session', phase', baud', -, -, -, records', -, -, tx', -, calls', -⟩ :=
    ((s.built Config.tagGbye []).enter .shuttingDown).sayGoodbye_spec
  generalize ((s.built Config.tagGbye []).enter .shuttingDown).sayGoodbye = u at *
  refine ⟨u, (u.answer none).closePort.finish .normal, first, session', ?_, rfl, rfl, rfl, records', baud', tx', ?_⟩
  · exact step_of_fetch_host ((fetch_ready (calls'.trans idle) (phase'.trans ready)).trans
      (fetchReady_eq_host.mpr (.inr (.inr ⟨session', rfl⟩))))
  · rw [State.closePort_finish_trace, State.answer_records, records']
    rfl

end Sys2Proof.Machine

/-! # The codes of the outcomes (60_exceptions.md R171) -/

namespace Sys2Proof.Machine

theorem OutcomeKind.code_toNat_le (k : OutcomeKind) : k.code.toNat ≤ 9 := by
  cases k <;> decide

/-- The table lists the kinds in the order of their declaration, so a code read as a position gives its kind back. -/
theorem OutcomeKind.ofNat_code : Function.LeftInverse (fun c : BitVec 4 => OutcomeKind.ofNat c.toNat) OutcomeKind.code := by
  intro k
  cases k <;> rfl

/-- Settles O60: no code is above 9, two kinds with one code are the kind it gives back, and the table is the definition of
`OutcomeKind.code`. -/
theorem outcomeCodes : Obligations.OutcomeCodes :=
  ⟨OutcomeKind.code_toNat_le, fun _ _ same => OutcomeKind.ofNat_code.injective same,
    rfl, rfl, rfl, rfl, rfl, rfl, rfl, rfl, rfl, rfl⟩

end Sys2Proof.Machine

namespace Sys2Proof

/-! # Decoding and encoding invert each other (30_encoding.md sections 2 to 5) -/

/-! ## Commands -/

/-- No two of the five commands have the same tag (30_encoding.md R53). -/
theorem tags_nodup : [Config.tagInit, Config.tagRspi, Config.tagRrai, Config.tagGnfd, Config.tagGbye].Nodup := by
  decide

/-- 30_encoding.md R68: which tag and payload stand for which command. -/
theorem commandOf_eq_ok {tag payload : Bytes} {i : Instr} : commandOf tag payload = .ok i ↔
    (∃ p, tag = Config.tagInit ∧ payload = p.bytes ∧ .init p = i) ∨
    (∃ p, tag = Config.tagRspi ∧ payload = p.bytes ∧ .rspi p = i) ∨
    (∃ p, tag = Config.tagRrai ∧ payload = p.bytes ∧ .rrai p = i) ∨
    (∃ g, tag = Config.tagGnfd ∧ payload = g.bytes ∧ .gnfd g = i) ∨
    (tag = Config.tagGbye ∧ payload = [] ∧ .gbye = i) := by
  constructor
  · intro h
    unfold commandOf at h
    split_ifs at h with init rspi rrai gnfd gbye
    all_goals split at h <;> cases h
    · exact .inl ⟨_, init, ByteVec.bytes_of_ofBytes ‹_›, rfl⟩
    · exact .inr (.inl ⟨_, rspi, ByteVec.bytes_of_ofBytes ‹_›, rfl⟩)
    · exact .inr (.inr (.inl ⟨_, rrai, ByteVec.bytes_of_ofBytes ‹_›, rfl⟩))
    · exact .inr (.inr (.inr (.inl ⟨_, gnfd, ByteVec.bytes_of_ofBytes ‹_›, rfl⟩)))
    · exact .inr (.inr (.inr (.inr ⟨gbye, rfl, rfl⟩)))
  · have distinct := tags_nodup
    rintro (⟨p, rfl, rfl, rfl⟩ | ⟨p, rfl, rfl, rfl⟩ | ⟨p, rfl, rfl, rfl⟩ | ⟨g, rfl, rfl, rfl⟩ | ⟨rfl, rfl, rfl⟩) <;>
      simp_all [commandOf, eq_comm]

/-- The encoding of a command is read as the command its tag and payload stand for. -/
theorem decodeFrame_commandFrame {tag payload : Bytes} {i : Instr} (encoded : encode i = some (commandFrame tag payload))
    (ht : tag.length = 4) (command : commandOf tag payload = .ok i) :
    decodeFrame .cmd (commandFrame tag payload) = .ok i := by
  have short := payload_length_le_of_encode encoded ht
  rw [decodeFrame, decodeCmd, parse_commandFrame ht (by omega)]
  exact command

/-- Settles O8: a command is read by its tag, an ack by its status, a header by its flag, a payload by its four fields. -/
theorem decodeInvertsEncode : Obligations.DecodeInvertsEncode := by
  intro i f b wf format encoded
  cases i <;> cases format <;> cases encoded
  case init p => exact decodeFrame_commandFrame rfl rfl (commandOf_eq_ok.mpr (.inl ⟨p, rfl, rfl, rfl⟩))
  case rspi p => exact decodeFrame_commandFrame rfl rfl (commandOf_eq_ok.mpr (.inr (.inl ⟨p, rfl, rfl, rfl⟩)))
  case rrai p => exact decodeFrame_commandFrame rfl rfl (commandOf_eq_ok.mpr (.inr (.inr (.inl ⟨p, rfl, rfl, rfl⟩))))
  case gnfd g =>
    exact decodeFrame_commandFrame rfl rfl (commandOf_eq_ok.mpr (.inr (.inr (.inr (.inl ⟨g, rfl, rfl, rfl⟩)))))
  case gbye =>
    exact decodeFrame_commandFrame rfl rfl (commandOf_eq_ok.mpr (.inr (.inr (.inr (.inr ⟨rfl, rfl, rfl⟩)))))
  case ackOk a => rw [decodeFrame, ackFrame_eq, decodeAckFrame_frame, if_pos rfl]
  case ackNotAcknowledged a status =>
    rw [decodeFrame, ackFrame_eq, decodeAckFrame_frame, if_neg (by simpa [Instr.wellFormed] using wf)]
  case hdrNoTarget h => rw [decodeFrame, decodeHdr_bytes, if_pos (by simpa [Instr.wellFormed] using wf)]
  case hdrTarget h => rw [decodeFrame, decodeHdr_bytes, if_neg (by simpa [Instr.wellFormed] using wf)]
  case pld distance speed angle magnitude => exact decodePld_fields distance speed angle magnitude

/-! ## What is read is encoded by the bytes it was read from -/

theorem encode_eq_and_wellFormed_of_decodeCmd {b : Bytes} {i : Instr} (h : decodeCmd b = .ok i) :
    encode i = some b ∧ i.wellFormed = true := by
  unfold decodeCmd at h
  split at h
  case h_1 parsed =>
    obtain ⟨rfl, -⟩ := commandFrame_of_parse parsed
    obtain ⟨p, rfl, rfl, rfl⟩ | ⟨p, rfl, rfl, rfl⟩ | ⟨p, rfl, rfl, rfl⟩ | ⟨g, rfl, rfl, rfl⟩ | ⟨rfl, rfl, rfl⟩ :=
      commandOf_eq_ok.mp h <;> exact ⟨rfl, rfl⟩
  case h_2 => cases h

theorem encode_eq_and_wellFormed_of_decodeAckFrame {b : Bytes} {i : Instr} (h : decodeAckFrame b = .ok i) :
    encode i = some b ∧ i.wellFormed = true := by
  by_cases nine : b.length = 9
  · obtain ⟨a, st, rfl⟩ := exists_ack_of_length nine
    rw [decodeAckFrame_frame] at h
    split at h
    case isTrue zero =>
      cases h
      exact ⟨by rw [encode, ackFrame_eq, zero], rfl⟩
    case isFalse nonzero =>
      cases h
      exact ⟨by rw [encode, ackFrame_eq], bne_iff_ne.mpr nonzero⟩
  · rw [decodeAckFrame_error nine] at h
    cases h

theorem encode_eq_and_wellFormed_of_decodeHdr {b : Bytes} {i : Instr} (h : decodeHdr b = .ok i) :
    encode i = some b ∧ i.wellFormed = true := by
  by_cases eight : b.length = 8
  · rw [decodeHdr_bytes ⟨b, eight⟩] at h
    split at h
    case isTrue no =>
      cases h
      exact ⟨rfl, no⟩
    case isFalse target =>
      cases h
      exact ⟨rfl, by simpa [Instr.wellFormed] using target⟩
  · rw [decodeHdr_error eight] at h
    cases h

theorem encode_eq_and_wellFormed_of_decodePld {b : Bytes} {i : Instr} (h : decodePld b = .ok i) :
    encode i = some b ∧ i.wellFormed = true := by
  by_cases eight : b.length = 8
  · match b, eight with
    | [b0, b1, b2, b3, b4, b5, b6, b7], _ =>
      rw [decodePld_bytes] at h
      cases h
      exact ⟨by simp [encode], rfl⟩
  · rw [decodePld_error eight] at h
    cases h

/-- Settles O9: each format's reader takes every byte it is given into an operand. -/
theorem encodeInvertsDecode : Obligations.EncodeInvertsDecode := by
  intro f b i h
  obtain ⟨encoded, wf⟩ : encode i = some b ∧ i.wellFormed = true := by
    cases f
    case cmd => exact encode_eq_and_wellFormed_of_decodeCmd h
    case ack => exact encode_eq_and_wellFormed_of_decodeAckFrame h
    case hdr => exact encode_eq_and_wellFormed_of_decodeHdr h
    case pld => exact encode_eq_and_wellFormed_of_decodePld h
  exact ⟨encoded, decodeFrame_format h, wf⟩

/-- Settles O7: the four samples, each format's reader evaluated. -/
theorem sampleWordsDecode : Obligations.SampleWordsDecode := ⟨rfl, rfl, rfl, rfl⟩

end Sys2Proof

namespace Sys2Proof

open Sys2Proof.Safety

namespace F64

/-! # Exact conversion up to 53 bits (00_scope.md section 6.3) -/

theorem ofInt_two_pow_53 : ofInt (2 ^ 53) = pack false (1075 * 2 ^ 52 + 2 ^ 52) := by decide

theorem ofInt_neg_two_pow_53 : ofInt (-2 ^ 53) = (ofInt (2 ^ 53)).neg := by decide

/-- The first integer that needs a 54th bit is a power of two, so it is exact too. -/
theorem ofInt_two_pow_53_exact : (ofInt (2 ^ 53)).isFinite = true ∧ (ofInt (2 ^ 53)).toRat = 2 ^ 53 := by
  refine ⟨by decide, ?_⟩
  rw [ofInt_two_pow_53, toRat_pack_ulp (by norm_num) (by norm_num) (.inr le_rfl), ulp]
  norm_num

/-- Settles O22: below `2 ^ 53` by the exactness of 53 bits, at the two ends by their data. -/
theorem integersConvertExactly : Obligations.IntegersConvertExactly := by
  intro n bound
  obtain inside | extreme := bound.lt_or_eq
  · exact ofInt_exact inside
  obtain ⟨finite, value⟩ := ofInt_two_pow_53_exact
  obtain rfl | rfl := eq_or_eq_neg_of_abs_eq extreme
  · exact ⟨finite, by exact_mod_cast value⟩
  · rw [ofInt_neg_two_pow_53, isFinite_neg, toRat_neg, value]
    exact ⟨finite, by norm_num⟩

/-! # Rounding keeps bounds -/

/-- A number no larger than a datum is not rounded beyond it. -/
theorem abs_toRat_le_of_nearest {x : ℚ} {r c : F64} (h : Nearest x r) (hc : c.isFinite) (hx : |x| ≤ c.toRat) :
    |r.toRat| ≤ c.toRat := by
  obtain ⟨lo, hi⟩ := abs_le.mp hx
  have above := (h.2 c hc).1
  have below := (h.2 c.neg (by simpa using hc)).1
  rw [toRat_neg] at below
  by_contra beyond
  rw [abs_le, not_and_or, not_le, not_le] at beyond
  obtain less | more := beyond
  · rw [abs_of_pos (by linarith), abs_of_nonneg (by linarith)] at below
    linarith
  · rw [abs_sub_comm, abs_of_pos (by linarith), abs_sub_comm, abs_of_nonneg (by linarith)] at above
    linarith

end F64

/-! # The direct fields lose nothing (42_decode_detection.md, laws of DET, item 5) -/

theorem unsignedField_injective : Function.Injective unsignedField := by
  intro v w same
  have value := congrArg F64.toRat same
  rw [(unsignedField_exact v).2, (unsignedField_exact w).2] at value
  exact BitVec.eq_of_toNat_eq (by exact_mod_cast value)

/-- A signed field is within `2 ^ -45` of its hundredth. -/
theorem hundredth_close {v : Half} {r : F64} (h : Nearest ((v.toInt : ℚ) / 100) r) :
    |r.toRat - (v.toInt : ℚ) / 100| ≤ 1 / 2 ^ 45 := by
  have raw : |(v.toInt : ℚ)| ≤ 2 ^ 15 := by exact_mod_cast abs_toInt_le v
  refine F64.nearest_close h (j := 44) (by norm_num) ?_
  rw [abs_div, abs_of_pos (by norm_num : (0 : ℚ) < 100)]
  linarith

/-- No datum is nearest to the hundredths of two raw values: they are `1 / 100` apart. -/
theorem eq_of_nearest_hundredth {v w : Half} {r : F64} (hv : Nearest ((v.toInt : ℚ) / 100) r)
    (hw : Nearest ((w.toInt : ℚ) / 100) r) : v = w := by
  refine BitVec.eq_of_toInt_eq (Int.sub_eq_zero.mp (Int.abs_lt_one_iff.mp ?_))
  have apart := abs_sub_le ((v.toInt : ℚ) / 100) r.toRat ((w.toInt : ℚ) / 100)
  rw [abs_sub_comm _ r.toRat, ← sub_div, abs_div, abs_of_pos (by norm_num : (0 : ℚ) < 100)] at apart
  have small : |(v.toInt : ℚ) - w.toInt| < 1 := by linarith [hundredth_close hv, hundredth_close hw]
  exact_mod_cast small

theorem speedField_injective : Function.Injective speedField := fun v w same =>
  eq_of_nearest_hundredth (r := speedField w) (same ▸ hundredth_nearest v) (hundredth_nearest w)

theorem angleField_injective : Function.Injective angleField := fun v w same =>
  eq_of_nearest_hundredth (r := angleField w) (same ▸ hundredth_nearest v) (hundredth_nearest w)

/-- Settles O25: the four fields are injective. -/
theorem directFieldsInjective : Obligations.DirectFieldsInjective := by
  intro N d sp a m d' sp' a' m' distance speed angle magnitude
  exact ⟨unsignedField_injective distance, speedField_injective speed, angleField_injective angle,
    unsignedField_injective magnitude⟩

/-! # The fields of a Target are finite (10_state.md R12) -/

/-- A distance times a factor within the unit interval is a finite coordinate within the range of distances. -/
theorem distance_mul_range {d v : F64} (hd : d.isFinite) (hv : v.isFinite) (range : |d.toRat| ≤ 65535)
    (unit : |v.toRat| ≤ 1) : (F64.mul d v).isFinite = true ∧ |(F64.mul d v).toRat| ≤ 65535 := by
  have product : |d.toRat * v.toRat| ≤ 65535 := by
    rw [abs_mul]
    exact (mul_le_of_le_one_right (abs_nonneg _) unit).trans range
  obtain ⟨limit, value⟩ := F64.ofInt_exact (n := 65535) (by norm_num)
  rw [Int.cast_ofNat] at value
  have rounding := F64.mul_isRounding hd hv
  have finite := rounding.isFinite (product.trans_lt (by norm_num))
  have bounded := F64.abs_toRat_le_of_nearest (rounding.nearest finite) limit (product.trans_eq value.symm)
  exact ⟨finite, bounded.trans_eq value⟩

section
variable {N : Numerics} {eps : ℚ} (h : N.Admissible eps) (d a : Half)
include h

theorem projectX_range : (projectX N (unsignedField d) (angleField a)).isFinite = true ∧
    |(projectX N (unsignedField d) (angleField a)).toRat| ≤ 65535 := by
  obtain ⟨finite, range, -⟩ := h.radians_range a
  exact distance_mul_range (by simpa using (unsignedField_exact d).1) (h.sin_close _ finite range).1
    (by simpa using unsignedField_range d) (h.sin_bound _ finite range)

theorem projectY_range : (projectY N (unsignedField d) (angleField a)).isFinite = true ∧
    |(projectY N (unsignedField d) (angleField a)).toRat| ≤ 65535 := by
  obtain ⟨finite, range, -⟩ := h.radians_range a
  exact distance_mul_range (unsignedField_exact d).1 (h.cos_close _ finite range).1 (unsignedField_range d)
    (h.cos_bound _ finite range)

end

/-- Settles O26: the direct fields are roundings of numbers in range, and the machine's record is admissible. -/
theorem targetFieldsFinite : Obligations.TargetFieldsFinite := by
  intro d sp a m
  obtain ⟨xFinite, xRange⟩ := projectX_range Numerics.machine_admissible d a
  obtain ⟨yFinite, yRange⟩ := projectY_range Numerics.machine_admissible d a
  exact ⟨(unsignedField_exact d).1, (hundredth_nearest sp).1, (hundredth_nearest a).1, (unsignedField_exact m).1,
    xFinite, yFinite, xRange, yRange⟩

end Sys2Proof

namespace Sys2Proof

open Sys2Proof.Safety

/-! # The projection at angle zero, and under change of the angle's sign (42_decode_detection.md, step 3) -/

namespace F64

/-! ## Products and signs -/

theorem roundMag_le (num den : Nat) : roundMag num den ≤ infMag := by
  unfold roundMag
  split
  · exact Nat.zero_le _
  · exact min_le_left _ _

theorem neg_pack_roundMag (neg : Bool) (num den : Nat) : (pack neg (roundMag num den)).neg = pack (!neg) (roundMag num den) := by
  have := roundMag_le num den
  exact neg_pack (by unfold infMag at this; omega)

theorem mul_of_isFinite {a b : F64} (ha : a.isFinite) (hb : b.isFinite) : mul a b = pack (xor a.isNeg b.isNeg)
    (roundMag (scaled (a.mant * b.mant) 1 (-(a.expo + b.expo))).1 (scaled (a.mant * b.mant) 1 (-(a.expo + b.expo))).2) := by
  simp only [mul, isNaN_eq_false, isInf_eq_false, ha, hb, Bool.or_self, Bool.false_eq_true, if_false]

/-- The product of finite data changes its sign with a factor, and nothing else. -/
theorem mul_neg_right {a b : F64} (ha : a.isFinite) (hb : b.isFinite) : mul a b.neg = (mul a b).neg := by
  rw [mul_of_isFinite ha hb, mul_of_isFinite ha (by simpa using hb), neg_pack_roundMag]
  simp

/-- The product of a finite datum and `+0.0` is a zero of the datum's sign. -/
theorem mul_zero_right {a : F64} (ha : a.isFinite) : mul a zero = pack a.isNeg 0 := by
  have sign : zero.isNeg = false := by decide
  have mant : zero.mant = 0 := by decide
  rw [mul_of_isFinite ha (by decide), sign, mant]
  simp [scaled, roundMag]

/-! ## A datum is known by its sign and its value -/

theorem ext_fields {a b : F64} (sign : a.isNeg = b.isNeg) (field : a.expField = b.expField) (frac : a.frac = b.frac) :
    a = b := by
  have ha := a.isLt
  have hb := b.isLt
  rw [isNeg_eq, isNeg_eq, decide_eq_decide] at sign
  unfold expField at field
  unfold F64.frac at frac
  exact BitVec.eq_of_toNat_eq (by omega)

/-- The hidden bit tells the two least exponents apart. -/
theorem fields_eq_of_mant_expo {a b : F64} (mant : a.mant = b.mant) (expo : a.expo = b.expo) :
    a.expField = b.expField ∧ a.frac = b.frac := by
  have ha : a.frac < 2 ^ 52 := Nat.mod_lt _ (by norm_num)
  have hb : b.frac < 2 ^ 52 := Nat.mod_lt _ (by norm_num)
  unfold F64.mant at mant
  unfold F64.expo at expo
  split at mant <;> split at mant <;> omega

/-- A datum of the greater exponent has its hidden bit, so it is of greater magnitude. -/
theorem expo_le_of_magnitude_eq {a b : F64} (h : (a.mant : ℚ) * 2 ^ a.expo = b.mant * 2 ^ b.expo) : b.expo ≤ a.expo := by
  by_contra greater
  obtain ⟨i, hi⟩ := Int.exists_add_of_le (Int.add_one_le_of_lt (not_le.mp greater))
  have scale : (2 : ℚ) ^ b.expo = 2 ^ (i + 1) * 2 ^ a.expo := by
    rw [two_pow_mul_zpow, hi]
    congr 1
    push_cast
    ring
  rw [scale, ← mul_assoc, mul_left_inj' (by positivity)] at h
  have product : a.mant = b.mant * 2 ^ (i + 1) := by exact_mod_cast h
  have hidden : 2 ^ 52 ≤ b.mant := by
    unfold mant
    unfold expo at hi
    split at hi <;> split at hi <;> split <;> omega
  have double : 2 ^ 1 ≤ 2 ^ (i + 1) := Nat.pow_le_pow_right two_pos (by omega)
  have := Nat.mul_le_mul hidden double
  have := a.mant_lt
  omega

theorem eq_of_toRat_eq {a b : F64} (sign : a.isNeg = b.isNeg) (value : a.toRat = b.toRat) : a = b := by
  have nonzero : F64.sign b.isNeg ≠ 0 := by cases b.isNeg <;> norm_num [F64.sign]
  rw [toRat_eq_sign_mul, toRat_eq_sign_mul, sign, mul_right_inj' nonzero] at value
  have expo := le_antisymm (expo_le_of_magnitude_eq value.symm) (expo_le_of_magnitude_eq value)
  rw [expo, mul_left_inj' (by positivity)] at value
  obtain ⟨field, frac⟩ := fields_eq_of_mant_expo (by exact_mod_cast value) expo
  exact ext_fields sign field frac

/-- A datum is its own product with `1.0`. -/
theorem mul_one_right {a : F64} (ha : a.isFinite) (range : |a.toRat| < 2 ^ 53) : mul a one = a := by
  have rounding := mul_isRounding ha (show one.isFinite by decide)
  rw [toRat_one, mul_one] at rounding
  have sign : xor a.isNeg one.isNeg = a.isNeg := by rw [show one.isNeg = false by decide, Bool.xor_false]
  exact eq_of_toRat_eq (rounding.isNeg_eq.trans sign)
    (toRat_eq_of_nearest (rounding.nearest (rounding.isFinite range)) ha)

end F64

/-! ## The machine's record -/

theorem F64.cutUnit_isFinite (x : ℚ) : (F64.cutUnit x).isFinite :=
  F64.isFinite_grid (by omega) (by norm_num)

namespace Numerics

/-- A free value is finite for every operand, within the range of R110 or beyond it. -/
theorem within_isFinite (series : ℚ → ℚ) (free : F64 → F64) (m : F64) : (within series free m).isFinite := by
  unfold within
  dsimp only
  split
  · exact (F64.clampUnit_spec (free m)).1
  · exact F64.cutUnit_isFinite _

theorem machine_sin_isFinite (r : F64) : (Config.numerics.sin r).isFinite :=
  oddOf_induction (Q := fun _ v => v.isFinite) (by decide) (fun m _ => within_isFinite _ _ m)
    (fun _ _ finite => by simpa using finite) r

theorem machine_radians_neg (a : F64) : Config.numerics.radians a.neg = (Config.numerics.radians a).neg := oddOf_neg _ a

theorem machine_sin_neg (r : F64) : Config.numerics.sin r.neg = (Config.numerics.sin r).neg := oddOf_neg _ r

theorem machine_cos_neg (r : F64) : Config.numerics.cos r.neg = Config.numerics.cos r := by simp [Config.numerics]

end Numerics

/-! ## The projection -/

theorem unsignedField_isNeg (v : Half) : (unsignedField v).isNeg = false := by
  rw [unsignedField, (F64.ofInt_isRounding _).isNeg_eq]
  exact decide_eq_false (Int.not_lt.mpr (Int.natCast_nonneg v.toNat))

/-- Under an admissible record the position at angle `+0.0` is straight ahead. -/
theorem Numerics.Admissible.project_zero {N : Numerics} {eps : ℚ} (h : N.Admissible eps) (d : Half) :
    projectX N (unsignedField d) F64.zero = F64.signBit ∧ projectY N (unsignedField d) F64.zero = unsignedField d := by
  have finite := (unsignedField_exact d).1
  constructor
  · rw [projectX, h.radians_zero, h.sin_zero, F64.mul_zero_right (by simpa using finite), F64.isNeg_neg,
      unsignedField_isNeg]
    decide
  · rw [projectY, h.radians_zero, h.cos_zero]
    exact F64.mul_one_right finite ((unsignedField_range d).trans_lt (by norm_num))

theorem projectX_neg (d : Half) (angle : F64) : projectX Config.numerics (unsignedField d) angle.neg =
    (projectX Config.numerics (unsignedField d) angle).neg := by
  rw [projectX, Numerics.machine_radians_neg, Numerics.machine_sin_neg]
  exact F64.mul_neg_right (by simpa using (unsignedField_exact d).1) (Numerics.machine_sin_isFinite _)

theorem projectY_neg (d : Half) (angle : F64) : projectY Config.numerics (unsignedField d) angle.neg =
    projectY Config.numerics (unsignedField d) angle := by
  rw [projectY, Numerics.machine_radians_neg, Numerics.machine_cos_neg, projectY]

/-- Settles O27: `SIN` and `RADIANS` of the machine are odd and `COS` is even for every operand, and `fmul` by a finite factor
passes the sign on. -/
theorem projectionZeroAndSymmetry : Obligations.ProjectionZeroAndSymmetry :=
  ⟨Numerics.machine_admissible.project_zero, fun d angle => ⟨projectX_neg d angle, projectY_neg d angle⟩⟩

end Sys2Proof

namespace Sys2Proof.Machine

open Sys2Proof.Safety

variable {s t : State}

/-! # What the next step runs -/

/-! ## The frame awaited (20_memory.md R42) -/

/-- An operation presented to the block is what the next step runs (70_reset_and_hazards.md R201). -/
theorem fetch_call {c : Call} {cs : List Call} (presented : s.calls = c :: cs) :
    fetch s = .run c.instr { s with calls := cs } := by
  rw [fetch, presented]

/-- Settles O47: what is presented, or what the bytes taken decode to, is fetched. -/
theorem stepRunsDecodedInstruction : Obligations.StepRunsDecodedInstruction := by
  refine ⟨fun c cs s presented => step_of_fetch_run (fetch_call presented), fun s i idle opened takes => ⟨?_, ?_, ?_⟩⟩
  · exact fun awaited frame => step_of_fetch_run ((fetch_awaitAck idle awaited).trans (fetchFrame_frame opened takes frame))
  · exact fun awaited frame =>
      step_of_fetch_run ((fetch_awaitHeader idle awaited).trans (fetchFrame_frame opened takes frame))
  · exact fun awaited frame =>
      step_of_fetch_run ((fetch_awaitPayload idle awaited).trans (fetchFrame_frame opened takes frame))

/-! ## Every instruction can be placed (log 26) -/

/-- A frame at the front of `rx`, awaited, is what the next step takes whole and runs. -/
theorem fetchFrame_receiving {p : Phase} {frame : Bytes} {f : Format} {n : Nat} {short : Bytes → State → State} {i : Instr}
    (whole : frame.length = n) (decoded : decodeFrame f frame = .ok i) :
    fetchFrame (s.receiving p frame) f n short = .run i ((s.receiving p frame).read n).2 := by
  refine fetchFrame_frame (Option.some_ne_none _) rfl ?_
  rw [show (s.receiving p frame).rx = frame ++ s.rx from rfl, List.append_assoc, ← whole, List.take_left]
  exact decoded

/-- Between exchanges the host fetches the command of the place it was brought to; at the others the frame at the front of
`rx` is decoded; an operation is fetched from the ports. -/
theorem fetch_placed (s : State) {i : Instr} (wf : i.wellFormed = true) : ∃ t, fetch (s.placed i) = .run i t := by
  have decoded {f : Format} {b : Bytes} (format : i.format = some f) (encoded : encode i = some b) :=
    decodeInvertsEncode i f b wf format encoded
  cases i
  case init =>
    exact ⟨_, (fetch_ready rfl rfl).trans (fetchReady_eq_run.mpr ⟨rfl, .inl ⟨rfl, rfl, Option.some_ne_none _, rfl⟩⟩)⟩
  case rspi => exact ⟨_, (fetch_ready rfl rfl).trans (fetchReady_eq_run.mpr ⟨rfl, .inr (.inl ⟨rfl, rfl⟩)⟩)⟩
  case rrai => exact ⟨_, (fetch_ready rfl rfl).trans (fetchReady_eq_run.mpr ⟨rfl, .inr (.inr (.inl ⟨rfl, rfl⟩))⟩)⟩
  case gbye =>
    exact ⟨_, (fetch_ready rfl rfl).trans (fetchReady_eq_run.mpr ⟨rfl, .inr (.inr (.inr (.inl ⟨rfl, rfl, rfl⟩)))⟩)⟩
  case gnfd =>
    exact ⟨_, (fetch_ready rfl rfl).trans (fetchReady_eq_run.mpr ⟨rfl, .inr (.inr (.inr (.inr ⟨rfl, rfl, rfl⟩)))⟩)⟩
  case ackOk | ackNotAcknowledged =>
    exact ⟨_, (fetch_awaitAck rfl rfl).trans (fetchFrame_receiving (ackFrame_length _ _) (decoded rfl rfl))⟩
  case hdrNoTarget h | hdrTarget h =>
    exact ⟨_, (fetch_awaitHeader rfl rfl).trans (fetchFrame_receiving h.length_bytes (decoded rfl rfl))⟩
  case pld => exact ⟨_, (fetch_awaitPayload rfl rfl).trans (fetchFrame_receiving rfl (decoded rfl rfl))⟩
  case encodeCommand opcode payload => exact ⟨_, fetch_call (c := .encode opcode payload) rfl⟩
  case decodeAck bytes => exact ⟨_, fetch_call (c := .ack bytes) rfl⟩
  case decodeDetection header source => exact ⟨_, fetch_call (c := .detection header source) rfl⟩

/-- Settles O49: what is fetched is what the step executes. -/
theorem placedInstructionRunsNext : Obligations.PlacedInstructionRunsNext := by
  intro s i wf
  obtain ⟨t, fetched⟩ := fetch_placed s wf
  exact ⟨t, fetched, step_of_fetch_run fetched⟩

/-! ## A session that has not ended goes on -/

/-- A header is tested by the instruction it decodes to. -/
theorem exec_of_decodeFrame_hdr {b : Bytes} {i : Instr} (frame : decodeFrame .hdr b = .ok i) (s : State) :
    ∃ h : Header, exec i s = .next (s.testHeader h) := by
  have eight : b.length = 8 := by
    by_contra other
    rw [decodeFrame, decodeHdr_error other] at frame
    cases frame
  rw [decodeFrame, decodeHdr_bytes ⟨b, eight⟩] at frame
  cases frame
  refine ⟨⟨b, eight⟩, ?_⟩
  split
  · exact exec_hdrNoTarget _ s
  · exact exec_hdrTarget _ s

/-- The step that awaits a header: its flag is tested, or the short take is reported. -/
theorem step_awaitHeader_advances (idle : s.calls = []) (awaited : s.phase = .awaitHeader) (opened : s.handle ≠ none)
    (succeeds : s.nextReply.ioError = false) : Advances (step s) := by
  have found := fetch_awaitHeader idle awaited
  cases taken : decodeFrame .hdr ((s.rx ++ s.nextReply.arrived).take 8)
  case ok i =>
    rw [fetchFrame_frame opened succeeds taken] at found
    obtain ⟨h, tested⟩ := exec_of_decodeFrame_hdr taken (s.read 8).2
    exact ⟨_, (step_of_fetch_run found).trans tested⟩
  case error e =>
    rw [fetchFrame_short opened succeeds taken] at found
    exact ⟨_, step_of_fetch_host found⟩

/-- Whatever a take awaited returns, and where it fails, the session goes on. -/
theorem step_take_advances (idle : s.calls = []) (busy : s.phase ≠ .ready) (opened : s.handle ≠ none) :
    Advances (step s) := by
  cases succeeds : s.nextReply.ioError
  case true =>
    obtain ⟨n, failed⟩ := step_take_failed idle busy opened succeeds
    exact ⟨_, failed⟩
  case false =>
    cases awaited : s.phase
    case ready => exact absurd awaited busy
    case awaitAck => exact ⟨_, step_awaitAck idle awaited opened succeeds⟩
    case awaitHeader => exact step_awaitHeader_advances idle awaited opened succeeds
    case awaitPayload => exact ⟨_, step_awaitPayload idle awaited opened succeeds⟩

/-- `INIT` goes on wherever the host sends it, also where its `open` fails. -/
theorem execInit_advances (p : Value) (session : s.session = .disconnected) (ready : s.phase = .ready)
    (new : s.sessionOutcome = none) (start : s.startEvent ≠ none) : Advances (execInit p s) := by
  obtain ⟨port, pending⟩ := Option.ne_none_iff_exists'.mp start
  cases opens : s.nextReply.ioError
  · exact ⟨_, execInit_eq_next.mpr ⟨new, session, ready, port, pending, .inl ⟨opens, rfl⟩⟩⟩
  · exact ⟨_, execInit_eq_next.mpr ⟨new, session, ready, port, pending, .inr ⟨opens, rfl⟩⟩⟩

/-- Between exchanges the host sends the command of its state, waits, or closes the transport. -/
theorem step_ready_advances (inv : SessionInv s) (idle : s.calls = []) (ready : s.phase = .ready)
    (new : s.sessionOutcome = none) : Advances (step s) := by
  obtain ⟨init, wait, rspi, rrai, gnfd, gbye⟩ := stepSelectsCommand s idle ready
  have may (begun : s.session ≠ .disconnected) : s.mayCommand s.session = true :=
    State.mayCommand_iff.mpr ⟨rfl, ready, (inv.running begun).handle, new⟩
  cases session : s.session
  case disconnected =>
    by_cases start : s.startEvent = none
    · exact ⟨_, wait session new start⟩
    · rw [init session new start]
      exact execInit_advances _ session ready new start
  case initializing =>
    exact ⟨_, (rspi session).trans (execRspi_eq_next.mpr ⟨session ▸ may (by simp [session]), rfl⟩)⟩
  case configuringSpeed =>
    exact ⟨_, (rrai session).trans (execRrai_eq_next.mpr ⟨session ▸ may (by simp [session]), rfl⟩)⟩
  case configuringRange => cases ready.symm.trans (inv.range_awaits session)
  case streaming =>
    have may := session ▸ may (by simp [session])
    cases cancelled : s.cancelRequested
    · exact ⟨_, (gnfd session cancelled).trans (execGnfd_eq_next.mpr ⟨⟨may, cancelled⟩, rfl⟩)⟩
    · exact ⟨_, (gbye session cancelled).trans (execGbye_eq_next.mpr ⟨⟨may, cancelled⟩, rfl⟩)⟩
  case shuttingDown =>
    exact ⟨_, step_of_fetch_host ((fetch_ready idle ready).trans (fetchReady_eq_host.mpr (.inr (.inr ⟨session, rfl⟩))))⟩

/-- Settles O54: a frame is awaited only with the transport open, and between exchanges each state has its step. -/
theorem sessionNeverStuck : Obligations.SessionNeverStuck := by
  intro s inv idle new
  by_cases ready : s.phase = .ready
  · exact step_ready_advances inv idle ready new
  · have begun : s.session ≠ .disconnected := fun session => ready (inv.idle (.inl session))
    exact step_take_advances idle ready (inv.running begun).handle

end Sys2Proof.Machine
